-- ==== Sys2Proof/Word.lean ====
section
/-! DEFINITION. The word types of the machine and the small vocabularies that the configuration and
the state share: bytes, addresses, bus-cycle kinds, the presented state of the sprite device. -/

namespace Sys2Proof

/-- A register, an operand byte or a byte of memory (00_scope section 6). -/
abbrev Byte := BitVec 8

/-- A bus address or a program counter value: 16 bits, arithmetic modulo 2^16 (20_memory R100). -/
abbrev Addr := BitVec 16

/-- A tick: unsigned 64 bits, sums modulo 2^64 (00_scope section 6, 10_state R60). -/
abbrev Tick := BitVec 64

/-- The five kinds of bus request, and there is no other (40_dispatch R200). -/
inductive BusKind where
  | fetchOpcode
  | fetchOperand
  | read
  | write
  | discard
  deriving DecidableEq, Repr

/-- The sprite device's state `suzy` (10_state R68): what `SPRITE_DEVICE.busy` answers, and the
rest, opaque to the core. Any device whose busy answer is a function of its state has this form. -/
structure Suzy where
  busy : Bool
  rest : Nat
  deriving DecidableEq, Repr, Inhabited

end Sys2Proof
end

