-- ==== Sys2Proof/Config.lean ====
section
/-! DEFINITION. What an implementation fixes (00_scope R7). A parameter the spec gives a default is a
field of `Params`; a parameter it marks OPEN is an opaque constant here, so that nothing can be proved
of its value beyond the bounds the spec states (log 11, log 14). -/

namespace Sys2Proof

/-- What a write to a ROM-owned address does (20_memory R105). -/
inductive RomWritePolicy where
  | discard
  | writeRam
  deriving DecidableEq, Repr

/-- The parameters of 00_scope R7 that have a default. -/
structure Params where
  /-- `ROCKWELL_BITOPS`: opcodes x7 and xF are RMBn, SMBn, BBRn, BBSn. -/
  rockwellBitops : Bool
  /-- `WDC_WAI_STP`: opcodes CB and DB are WAI and STP. -/
  wdcWaiStp : Bool
  /-- `DECIMAL_EXTRA_CYCLE`: ADC and SBC with D = 1 take one more bus cycle. -/
  decimalExtraCycle : Bool
  /-- `BRK_SOFT_IGNORE_SIG`: the BRK signature that makes BRK a no-op; `none` for no soft ignore
  (44_control R418). -/
  brkSoftIgnoreSig : Option Byte
  /-- `ROM_WRITE_POLICY`. -/
  romWritePolicy : RomWritePolicy
  /-- `TICKS_PER_SECOND`. -/
  ticksPerSecond : Nat
  /-- `TIMER_DONE_GATES`: a done, non-reloading timer stops counting. -/
  timerDoneGates : Bool
  /-- `LFSR_INVERT`: the feedback bit is the inverted parity. -/
  lfsrInvert : Bool
  /-- `ROW_BYTES`: display bytes fetched per row. -/
  rowBytes : Nat
  /-- `VISIBLE_ROWS`: rows that get DMA per frame. -/
  visibleRows : Nat
  deriving DecidableEq, Repr

/-- The defaults of 00_scope R7: the 65SC02 of the Lynx. -/
def Params.default : Params where
  rockwellBitops := false
  wdcWaiStp := false
  decimalExtraCycle := true
  brkSoftIgnoreSig := some 0x42
  romWritePolicy := .discard
  ticksPerSecond := 16000000
  timerDoneGates := true
  lfsrInvert := false
  rowBytes := 80
  visibleRows := 102

namespace Config

/-- `RAM_LATENCY(kind, addr, prev)` less the one tick every latency has at least (55_system R703). -/
opaque ramLatencyExtra : BusKind → Addr → Option (BusKind × Addr) → Nat
/-- `ROM_LATENCY(kind, addr)` less one tick (55_system R703). -/
opaque romLatencyExtra : BusKind → Addr → Nat
/-- `MIKEY_COMPLETION(tick, addr) - tick` less one tick (54_controller_chip R633). -/
opaque mikeyLatencyExtra : Tick → Addr → Nat
/-- `SUZY_COMPLETION(tick, addr) - tick` less one tick (55_system R703). -/
opaque suzyLatencyExtra : Tick → Addr → Nat
/-- `RESET_TICKS` less one tick: the reset window is at least one tick (70_reset R801). -/
opaque resetTicksExtra : Nat
/-- The tick the counter shows where its sum with a number of ticks leaves the 64 bits, which no rule
states; `advanceTick` holds it to what the rules do state (log 3). -/
opaque tickPastEnd : Tick → Nat → Tick
/-- `NOISE(addr)`: what an unused ControllerChip address reads as, a function of the address only
(54_controller_chip R669). -/
opaque noise : Addr → Byte
/-- `INIT_RAM`: the RAM contents at power-on, any bytes (10_state R90). -/
opaque initRam : Nat → Byte
/-- `ROM_IMAGE`: the boot ROM bytes, host input (10_state R90). -/
opaque romImage : Nat → Byte
/-- `DMA_BEATS` before it is held to a divisor of `ROW_BYTES` (53_display R603). -/
opaque dmaBeatsRaw : Nat
/-- `DMA_START_OFFSET(rowAddr)` (53_display R602). -/
opaque dmaStartOffset : Addr → Nat
/-- `DMA_BEAT_SPACING` (53_display R605). -/
opaque dmaBeatSpacing : Nat
/-- `DMA_CPU_COST` (53_display R604). -/
opaque dmaCpuCost : Nat
/-- `PIXEL_COLUMN(tick, rowStartTick)` (53_display R606). -/
opaque pixelColumn : Tick → Tick → Nat
/-- `MIX(outputs, atten, pan, stereo)`; a sample is an integer, 0 the silent one (55_system R710). -/
opaque mix : List Byte → List Byte → Byte → Byte → Int
/-- `TIE_ORDER`: the choice made at the n-th tie of the event queue (50_event_queue R504). -/
opaque tieOrder : Nat → Nat
/-- `CTLB_LOW(n, t)`: the three status bits the model does not simulate (51_timers R530). -/
opaque ctlbLow : Nat → Tick → BitVec 3
/-- The level of the parallel input pins `IO_IN` before the host sets it (54_controller_chip R664). -/
opaque ioInInit : Byte
/-- The part of the host's initial sprite-device state the core cannot see (10_state R90). -/
opaque suzyInit : Nat
/-- `SPRITE_DEVICE.read(tick, a)` (20_memory R107, 55_system R706). -/
opaque spriteRead : Tick → Suzy → Addr → Byte
/-- `SPRITE_DEVICE.write(tick, a, v)`: the device state after it (20_memory R107). -/
opaque spriteWrite : Tick → Suzy → Addr → Byte → Suzy
/-- `SPRITE_DEVICE.step(tick, suzy, RAM)`: the device state after it, the RAM bytes it writes in
order, and its duration less the one tick it takes at least (55_system R706). -/
opaque spriteStep : Tick → Suzy → List Host.Cell → Suzy × List (Addr × Byte) × Nat
/-- The pure function of the host's trap number `id`: the value passed on and whether it asks for a
break (55_system R708). -/
opaque trapFn : Nat → Tick → Addr → Byte → Byte × Bool

/-- `RESET_TICKS`, at least 1 (70_reset R801). -/
def resetTicks : Nat := resetTicksExtra + 1

end Config

/-- `DMA_BEATS`: any divisor of `ROW_BYTES` (53_display R603). A raw value that divides `ROW_BYTES` is
taken as it is, any other is taken as one beat, so that exactly the admitted values occur. -/
def Params.dmaBeats (p : Params) : Nat :=
  if 0 < Config.dmaBeatsRaw ∧ p.rowBytes % Config.dmaBeatsRaw = 0 then Config.dmaBeatsRaw else 1

/-- `BEAT_BYTES = ROW_BYTES / DMA_BEATS` (53_display R603). -/
def Params.beatBytes (p : Params) : Nat := p.rowBytes / p.dmaBeats

end Sys2Proof
end

