-- ==== Sys2Proof/Syntax.lean ====
section
/-! DEFINITION. The instructions: one constructor for each mnemonic row of spec/opcode_table.json, its
addressing mode a field, and one for each of the seven kinds of NOP row (30_encoding R180 to R183).
Operand bytes are no field: each is fetched by a bus cycle of the instruction's own (log 13). -/

namespace Sys2Proof

/-- The addressing modes of 30_encoding R160 to R172. -/
inductive Mode where
  | imm      -- immediate, R160
  | acc      -- accumulator, R160
  | zp       -- zero page, R161
  | zpX      -- zero page,X, R162
  | zpY      -- zero page,Y, R163
  | abs      -- absolute, R164
  | absX     -- absolute,X, R165
  | absY     -- absolute,Y, R166
  | indX     -- (zero page,X), R167
  | indY     -- (zero page),Y, R168
  | ind      -- (zero page), R169
  | absInd   -- (absolute), JMP only, R171
  | absIndX  -- (absolute,X), JMP only, R172
  deriving DecidableEq, Repr

/-- The instruction set (30_encoding R181). -/
inductive Instr where
  -- 41_load_store
  | lda (m : Mode) | ldx (m : Mode) | ldy (m : Mode)
  | sta (m : Mode) | stx (m : Mode) | sty (m : Mode) | stz (m : Mode)
  | tax | tay | txa | tya | tsx | txs
  -- 42_alu
  | adc (m : Mode) | sbc (m : Mode) | and (m : Mode) | ora (m : Mode) | eor (m : Mode)
  | cmp (m : Mode) | cpx (m : Mode) | cpy (m : Mode) | bit (m : Mode)
  -- 43_rmw
  | asl (m : Mode) | lsr (m : Mode) | rol (m : Mode) | ror (m : Mode)
  | inc (m : Mode) | dec (m : Mode)
  | inx | iny | dex | dey
  | tsb (m : Mode) | trb (m : Mode)
  | rmb0 | rmb1 | rmb2 | rmb3 | rmb4 | rmb5 | rmb6 | rmb7
  | smb0 | smb1 | smb2 | smb3 | smb4 | smb5 | smb6 | smb7
  -- 44_control
  | bpl | bmi | bvc | bvs | bcc | bcs | bne | beq | bra
  | bbr0 | bbr1 | bbr2 | bbr3 | bbr4 | bbr5 | bbr6 | bbr7
  | bbs0 | bbs1 | bbs2 | bbs3 | bbs4 | bbs5 | bbs6 | bbs7
  | jmp (m : Mode) | jsr | rts | rti | brk
  -- 45_stack_flags_misc
  | pha | php | phx | phy | pla | plp | plx | ply
  | clc | sec | cli | sei | cld | sed | clv
  | nop                   -- 0xEA, R445
  | nopOne (op : Byte)    -- undefined, 1 byte, 1 cycle, R446
  | nopImm (op : Byte)    -- undefined, immediate, R447
  | nopZp                 -- undefined 0x44, zero page, R448
  | nopZpX (op : Byte)    -- undefined, zero page,X, R449
  | nopAbs (op : Byte)    -- undefined, absolute, R450
  | nop5C                 -- undefined 0x5C, R451
  | wai | stp
  deriving DecidableEq, Repr

end Sys2Proof
end

