-- ==== Sys2Proof/WellFormed.lean ====
section
/-! DEFINITION. Which `Instr` terms an opcode encodes: the addressing modes each instruction has (the
"Encodings" of its rule) and the opcodes of the undefined no-ops (30_encoding R182), and which
instructions a machine has under its parameters (R183). -/

namespace Sys2Proof

/-- The nine modes of LDA, ADC, SBC, AND, ORA, EOR and CMP (41_load_store R300, 42_alu R340). -/
def Mode.isAlu : Mode → Bool
  | .imm | .zp | .zpX | .abs | .absX | .absY | .indX | .indY | .ind => true
  | _ => false

/-- The modes with an effective address (30_encoding R161 to R169). -/
def Mode.isMem : Mode → Bool
  | .zp | .zpX | .zpY | .abs | .absX | .absY | .indX | .indY | .ind => true
  | _ => false

/-- The modes of STA (41_load_store R303). -/
def Mode.isSta (m : Mode) : Bool := m.isAlu && m != .imm

/-- The modes of LDX (41_load_store R301). -/
def Mode.isLdx : Mode → Bool
  | .imm | .zp | .zpY | .abs | .absY => true
  | _ => false

/-- The modes of LDY and of BIT (41_load_store R302, 42_alu R350). -/
def Mode.isLdy : Mode → Bool
  | .imm | .zp | .zpX | .abs | .absX => true
  | _ => false

/-- The modes of STX (41_load_store R304). -/
def Mode.isStx : Mode → Bool
  | .zp | .zpY | .abs => true
  | _ => false

/-- The modes of STY (41_load_store R305). -/
def Mode.isSty : Mode → Bool
  | .zp | .zpX | .abs => true
  | _ => false

/-- The modes of STZ (41_load_store R306). -/
def Mode.isStz : Mode → Bool
  | .zp | .zpX | .abs | .absX => true
  | _ => false

/-- The modes of CPX and CPY (42_alu R348, R349). -/
def Mode.isCpx : Mode → Bool
  | .imm | .zp | .abs => true
  | _ => false

/-- The modes of ASL, LSR, ROL, ROR, INC and DEC (43_rmw R370 to R375). -/
def Mode.isShift : Mode → Bool
  | .acc | .zp | .zpX | .abs | .absX => true
  | _ => false

/-- The modes of TSB and TRB (43_rmw R380, R381). -/
def Mode.isTsb : Mode → Bool
  | .zp | .abs => true
  | _ => false

/-- The modes of JMP (44_control R412). -/
def Mode.isJmp : Mode → Bool
  | .abs | .absInd | .absIndX => true
  | _ => false

/-- The term is an instruction that some opcode encodes (30_encoding R180, R182). -/
def Instr.wf : Instr → Bool
  | .lda m | .adc m | .sbc m | .and m | .ora m | .eor m | .cmp m => m.isAlu
  | .ldx m => m.isLdx
  | .ldy m | .bit m => m.isLdy
  | .sta m => m.isSta
  | .stx m => m.isStx
  | .sty m => m.isSty
  | .stz m => m.isStz
  | .cpx m | .cpy m => m.isCpx
  | .asl m | .lsr m | .rol m | .ror m | .inc m | .dec m => m.isShift
  | .tsb m | .trb m => m.isTsb
  | .jmp m => m.isJmp
  | .nopOne op => op.toNat % 4 == 3
  | .nopImm op => [0x02, 0x22, 0x42, 0x62, 0x82, 0xC2, 0xE2].contains op.toNat
  | .nopZpX op => [0x54, 0xD4, 0xF4].contains op.toNat
  | .nopAbs op => [0xDC, 0xFC].contains op.toNat
  | _ => true

/-- The machine with parameters `p` has the instruction: the Rockwell bit instructions, WAI and STP
and the no-ops in their places are switched by parameters (30_encoding R183). -/
def Instr.present (p : Params) : Instr → Bool
  | .rmb0 | .rmb1 | .rmb2 | .rmb3 | .rmb4 | .rmb5 | .rmb6 | .rmb7
  | .smb0 | .smb1 | .smb2 | .smb3 | .smb4 | .smb5 | .smb6 | .smb7
  | .bbr0 | .bbr1 | .bbr2 | .bbr3 | .bbr4 | .bbr5 | .bbr6 | .bbr7
  | .bbs0 | .bbs1 | .bbs2 | .bbs3 | .bbs4 | .bbs5 | .bbs6 | .bbs7 => p.rockwellBitops
  | .wai | .stp => p.wdcWaiStp
  | .nopOne op =>
    !(p.rockwellBitops && op.toNat % 8 == 7) && !(p.wdcWaiStp && (op == 0xCB || op == 0xDB))
  | _ => true

/-- Well formed for the machine with parameters `p`. -/
def Instr.wellFormed (p : Params) (i : Instr) : Bool := i.wf && i.present p

/-- An undefined opcode's no-op (30_encoding R182): it leaves a hiccup record (45_stack R446). -/
def Instr.undefinedNop : Instr → Bool
  | .nopOne _ | .nopImm _ | .nopZp | .nopZpX _ | .nopAbs _ | .nop5C => true
  | _ => false

/-- The one-cycle no-op, complete when its opcode fetch is answered (40_dispatch R242). -/
def Instr.oneCycle : Instr → Bool
  | .nopOne _ => true
  | _ => false

/-- The number of operand bytes a mode has (30_encoding R151). -/
def Mode.operandCount : Mode → Nat
  | .acc => 0
  | .imm | .zp | .zpX | .zpY | .indX | .indY | .ind => 1
  | .abs | .absX | .absY | .absInd | .absIndX => 2

/-- The number of operand bytes an instruction has (30_encoding R151, R180). -/
def Instr.operandCount : Instr → Nat
  | .lda m | .ldx m | .ldy m | .sta m | .stx m | .sty m | .stz m
  | .adc m | .sbc m | .and m | .ora m | .eor m | .cmp m | .cpx m | .cpy m | .bit m
  | .asl m | .lsr m | .rol m | .ror m | .inc m | .dec m | .tsb m | .trb m | .jmp m => m.operandCount
  | .rmb0 | .rmb1 | .rmb2 | .rmb3 | .rmb4 | .rmb5 | .rmb6 | .rmb7
  | .smb0 | .smb1 | .smb2 | .smb3 | .smb4 | .smb5 | .smb6 | .smb7 => 1
  | .bpl | .bmi | .bvc | .bvs | .bcc | .bcs | .bne | .beq | .bra => 1
  | .bbr0 | .bbr1 | .bbr2 | .bbr3 | .bbr4 | .bbr5 | .bbr6 | .bbr7
  | .bbs0 | .bbs1 | .bbs2 | .bbs3 | .bbs4 | .bbs5 | .bbs6 | .bbs7 => 2
  | .jsr | .nopAbs _ | .nop5C => 2
  | .brk | .nopImm _ | .nopZp | .nopZpX _ => 1
  | .tax | .tay | .txa | .tya | .tsx | .txs | .inx | .iny | .dex | .dey
  | .rts | .rti | .pha | .php | .phx | .phy | .pla | .plp | .plx | .ply
  | .clc | .sec | .cli | .sei | .cld | .sed | .clv | .nop | .nopOne _ | .wai | .stp => 0

end Sys2Proof
end

