-- ==== Sys2Proof/Decode.lean ====
section
/-! DEFINITION. The decoder, from the opcode map of 30_encoding R180, and after it the encoder, from the
"Encodings" line of each instruction's own rule: the two are written from different places of the
spec, so that their agreement checks one against the other. -/

namespace Sys2Proof

/-- Opcodes 0x00 to 0x0F (30_encoding R180). -/
def opcodeRow0 : List Instr :=
  [.brk, .ora .indX, .nopImm 0x02, .nopOne 0x03,
   .tsb .zp, .ora .zp, .asl .zp, .nopOne 0x07,
   .php, .ora .imm, .asl .acc, .nopOne 0x0B,
   .tsb .abs, .ora .abs, .asl .abs, .nopOne 0x0F]

/-- Opcodes 0x10 to 0x1F (30_encoding R180). -/
def opcodeRow1 : List Instr :=
  [.bpl, .ora .indY, .ora .ind, .nopOne 0x13,
   .trb .zp, .ora .zpX, .asl .zpX, .nopOne 0x17,
   .clc, .ora .absY, .inc .acc, .nopOne 0x1B,
   .trb .abs, .ora .absX, .asl .absX, .nopOne 0x1F]

/-- Opcodes 0x20 to 0x2F (30_encoding R180). -/
def opcodeRow2 : List Instr :=
  [.jsr, .and .indX, .nopImm 0x22, .nopOne 0x23,
   .bit .zp, .and .zp, .rol .zp, .nopOne 0x27,
   .plp, .and .imm, .rol .acc, .nopOne 0x2B,
   .bit .abs, .and .abs, .rol .abs, .nopOne 0x2F]

/-- Opcodes 0x30 to 0x3F (30_encoding R180). -/
def opcodeRow3 : List Instr :=
  [.bmi, .and .indY, .and .ind, .nopOne 0x33,
   .bit .zpX, .and .zpX, .rol .zpX, .nopOne 0x37,
   .sec, .and .absY, .dec .acc, .nopOne 0x3B,
   .bit .absX, .and .absX, .rol .absX, .nopOne 0x3F]

/-- Opcodes 0x40 to 0x4F (30_encoding R180). -/
def opcodeRow4 : List Instr :=
  [.rti, .eor .indX, .nopImm 0x42, .nopOne 0x43,
   .nopZp, .eor .zp, .lsr .zp, .nopOne 0x47,
   .pha, .eor .imm, .lsr .acc, .nopOne 0x4B,
   .jmp .abs, .eor .abs, .lsr .abs, .nopOne 0x4F]

/-- Opcodes 0x50 to 0x5F (30_encoding R180). -/
def opcodeRow5 : List Instr :=
  [.bvc, .eor .indY, .eor .ind, .nopOne 0x53,
   .nopZpX 0x54, .eor .zpX, .lsr .zpX, .nopOne 0x57,
   .cli, .eor .absY, .phy, .nopOne 0x5B,
   .nop5C, .eor .absX, .lsr .absX, .nopOne 0x5F]

/-- Opcodes 0x60 to 0x6F (30_encoding R180). -/
def opcodeRow6 : List Instr :=
  [.rts, .adc .indX, .nopImm 0x62, .nopOne 0x63,
   .stz .zp, .adc .zp, .ror .zp, .nopOne 0x67,
   .pla, .adc .imm, .ror .acc, .nopOne 0x6B,
   .jmp .absInd, .adc .abs, .ror .abs, .nopOne 0x6F]

/-- Opcodes 0x70 to 0x7F (30_encoding R180). -/
def opcodeRow7 : List Instr :=
  [.bvs, .adc .indY, .adc .ind, .nopOne 0x73,
   .stz .zpX, .adc .zpX, .ror .zpX, .nopOne 0x77,
   .sei, .adc .absY, .ply, .nopOne 0x7B,
   .jmp .absIndX, .adc .absX, .ror .absX, .nopOne 0x7F]

/-- Opcodes 0x80 to 0x8F (30_encoding R180). -/
def opcodeRow8 : List Instr :=
  [.bra, .sta .indX, .nopImm 0x82, .nopOne 0x83,
   .sty .zp, .sta .zp, .stx .zp, .nopOne 0x87,
   .dey, .bit .imm, .txa, .nopOne 0x8B,
   .sty .abs, .sta .abs, .stx .abs, .nopOne 0x8F]

/-- Opcodes 0x90 to 0x9F (30_encoding R180). -/
def opcodeRow9 : List Instr :=
  [.bcc, .sta .indY, .sta .ind, .nopOne 0x93,
   .sty .zpX, .sta .zpX, .stx .zpY, .nopOne 0x97,
   .tya, .sta .absY, .txs, .nopOne 0x9B,
   .stz .abs, .sta .absX, .stz .absX, .nopOne 0x9F]

/-- Opcodes 0xA0 to 0xAF (30_encoding R180). -/
def opcodeRowA : List Instr :=
  [.ldy .imm, .lda .indX, .ldx .imm, .nopOne 0xA3,
   .ldy .zp, .lda .zp, .ldx .zp, .nopOne 0xA7,
   .tay, .lda .imm, .tax, .nopOne 0xAB,
   .ldy .abs, .lda .abs, .ldx .abs, .nopOne 0xAF]

/-- Opcodes 0xB0 to 0xBF (30_encoding R180). -/
def opcodeRowB : List Instr :=
  [.bcs, .lda .indY, .lda .ind, .nopOne 0xB3,
   .ldy .zpX, .lda .zpX, .ldx .zpY, .nopOne 0xB7,
   .clv, .lda .absY, .tsx, .nopOne 0xBB,
   .ldy .absX, .lda .absX, .ldx .absY, .nopOne 0xBF]

/-- Opcodes 0xC0 to 0xCF (30_encoding R180). -/
def opcodeRowC : List Instr :=
  [.cpy .imm, .cmp .indX, .nopImm 0xC2, .nopOne 0xC3,
   .cpy .zp, .cmp .zp, .dec .zp, .nopOne 0xC7,
   .iny, .cmp .imm, .dex, .nopOne 0xCB,
   .cpy .abs, .cmp .abs, .dec .abs, .nopOne 0xCF]

/-- Opcodes 0xD0 to 0xDF (30_encoding R180). -/
def opcodeRowD : List Instr :=
  [.bne, .cmp .indY, .cmp .ind, .nopOne 0xD3,
   .nopZpX 0xD4, .cmp .zpX, .dec .zpX, .nopOne 0xD7,
   .cld, .cmp .absY, .phx, .nopOne 0xDB,
   .nopAbs 0xDC, .cmp .absX, .dec .absX, .nopOne 0xDF]

/-- Opcodes 0xE0 to 0xEF (30_encoding R180). -/
def opcodeRowE : List Instr :=
  [.cpx .imm, .sbc .indX, .nopImm 0xE2, .nopOne 0xE3,
   .cpx .zp, .sbc .zp, .inc .zp, .nopOne 0xE7,
   .inx, .sbc .imm, .nop, .nopOne 0xEB,
   .cpx .abs, .sbc .abs, .inc .abs, .nopOne 0xEF]

/-- Opcodes 0xF0 to 0xFF (30_encoding R180). -/
def opcodeRowF : List Instr :=
  [.beq, .sbc .indY, .sbc .ind, .nopOne 0xF3,
   .nopZpX 0xF4, .sbc .zpX, .inc .zpX, .nopOne 0xF7,
   .sed, .sbc .absY, .plx, .nopOne 0xFB,
   .nopAbs 0xFC, .sbc .absX, .inc .absX, .nopOne 0xFF]

/-- The opcode map of 30_encoding R180 with both parameters false: the 65SC02. -/
def opcodeMap : List Instr :=
  opcodeRow0 ++ opcodeRow1 ++ opcodeRow2 ++ opcodeRow3 ++ opcodeRow4 ++ opcodeRow5 ++ opcodeRow6 ++
  opcodeRow7 ++ opcodeRow8 ++ opcodeRow9 ++ opcodeRowA ++ opcodeRowB ++ opcodeRowC ++ opcodeRowD ++
  opcodeRowE ++ opcodeRowF

/-- Opcodes x7 when `ROCKWELL_BITOPS` is true (30_encoding R183). -/
def rockwellColumn7 : List Instr :=
  [.rmb0, .rmb1, .rmb2, .rmb3, .rmb4, .rmb5, .rmb6, .rmb7,
   .smb0, .smb1, .smb2, .smb3, .smb4, .smb5, .smb6, .smb7]

/-- Opcodes xF when `ROCKWELL_BITOPS` is true (30_encoding R183). -/
def rockwellColumnF : List Instr :=
  [.bbr0, .bbr1, .bbr2, .bbr3, .bbr4, .bbr5, .bbr6, .bbr7,
   .bbs0, .bbs1, .bbs2, .bbs3, .bbs4, .bbs5, .bbs6, .bbs7]

/-- The instruction of an opcode byte on a machine with parameters `p`; every byte has one, for no
encoding traps (30_encoding R150, R182, R183). -/
def decodeOpcode (p : Params) (op : Byte) : Instr :=
  let n := op.toNat
  if p.rockwellBitops && n % 16 == 7 then rockwellColumn7.getD (n / 16) .nop
  else if p.rockwellBitops && n % 16 == 15 then rockwellColumnF.getD (n / 16) .nop
  else if p.wdcWaiStp && n == 0xCB then .wai
  else if p.wdcWaiStp && n == 0xDB then .stp
  else opcodeMap.getD n .nop

/-- Why a list of bytes holds no whole instruction. -/
inductive DecodeError where
  /-- There is no opcode byte. -/
  | noOpcode
  /-- The opcode is there and an operand byte of its instruction is not. -/
  | missingOperand (i : Instr)
  deriving DecidableEq, Repr

/-- An instruction read from bytes, its operand bytes, and the bytes after it. -/
structure Decoded where
  instr : Instr
  operands : List Byte
  rest : List Byte
  deriving DecidableEq, Repr

/-- The decoder: the opcode byte gives the instruction and its length (30_encoding R150). Total on any
bytes; it rejects only bytes that end inside an instruction. -/
def decode (p : Params) : List Byte → Except DecodeError Decoded
  | [] => .error .noOpcode
  | op :: bytes =>
    let i := decodeOpcode p op
    if bytes.length < i.operandCount then .error (.missingOperand i)
    else .ok ⟨i, bytes.take i.operandCount, bytes.drop i.operandCount⟩

/-- The three bytes of a word numbered from its least significant bit, the first at the lowest
address (30_encoding R150). -/
def wordBytes (w : Nat) : List Byte :=
  [BitVec.ofNat 8 w, BitVec.ofNat 8 (w / 256), BitVec.ofNat 8 (w / 65536)]

/-- The bits of `w` that a row of `nbits` bits gives; those above are zero. -/
def tableWord (nbits w : Nat) : Nat := w % 2 ^ nbits

/-- What the decoder reads, on the machine with the default parameters, from an instruction whose bits
are `w`. -/
def decodeTableWord (nbits w : Nat) : Option Instr :=
  match decode Params.default (wordBytes (tableWord nbits w)) with
  | .ok d => some d.instr
  | .error _ => none

/-! ### The encoder -/

/-- The opcodes of LDA by addressing mode (R300); 0x00 for a mode it has not. -/
def opcodeLda : Mode → Byte
  | .imm => 0xA9
  | .zp => 0xA5
  | .zpX => 0xB5
  | .abs => 0xAD
  | .absX => 0xBD
  | .absY => 0xB9
  | .indX => 0xA1
  | .indY => 0xB1
  | .ind => 0xB2
  | _ => 0x00

/-- The opcodes of LDX by addressing mode (R301); 0x00 for a mode it has not. -/
def opcodeLdx : Mode → Byte
  | .imm => 0xA2
  | .zp => 0xA6
  | .zpY => 0xB6
  | .abs => 0xAE
  | .absY => 0xBE
  | _ => 0x00

/-- The opcodes of LDY by addressing mode (R302); 0x00 for a mode it has not. -/
def opcodeLdy : Mode → Byte
  | .imm => 0xA0
  | .zp => 0xA4
  | .zpX => 0xB4
  | .abs => 0xAC
  | .absX => 0xBC
  | _ => 0x00

/-- The opcodes of STA by addressing mode (R303); 0x00 for a mode it has not. -/
def opcodeSta : Mode → Byte
  | .zp => 0x85
  | .zpX => 0x95
  | .abs => 0x8D
  | .absX => 0x9D
  | .absY => 0x99
  | .indX => 0x81
  | .indY => 0x91
  | .ind => 0x92
  | _ => 0x00

/-- The opcodes of STX by addressing mode (R304); 0x00 for a mode it has not. -/
def opcodeStx : Mode → Byte
  | .zp => 0x86
  | .zpY => 0x96
  | .abs => 0x8E
  | _ => 0x00

/-- The opcodes of STY by addressing mode (R305); 0x00 for a mode it has not. -/
def opcodeSty : Mode → Byte
  | .zp => 0x84
  | .zpX => 0x94
  | .abs => 0x8C
  | _ => 0x00

/-- The opcodes of STZ by addressing mode (R306); 0x00 for a mode it has not. -/
def opcodeStz : Mode → Byte
  | .zp => 0x64
  | .zpX => 0x74
  | .abs => 0x9C
  | .absX => 0x9E
  | _ => 0x00

/-- The opcodes of ADC by addressing mode (R340); 0x00 for a mode it has not. -/
def opcodeAdc : Mode → Byte
  | .imm => 0x69
  | .zp => 0x65
  | .zpX => 0x75
  | .abs => 0x6D
  | .absX => 0x7D
  | .absY => 0x79
  | .indX => 0x61
  | .indY => 0x71
  | .ind => 0x72
  | _ => 0x00

/-- The opcodes of SBC by addressing mode (R342); 0x00 for a mode it has not. -/
def opcodeSbc : Mode → Byte
  | .imm => 0xE9
  | .zp => 0xE5
  | .zpX => 0xF5
  | .abs => 0xED
  | .absX => 0xFD
  | .absY => 0xF9
  | .indX => 0xE1
  | .indY => 0xF1
  | .ind => 0xF2
  | _ => 0x00

/-- The opcodes of AND by addressing mode (R344); 0x00 for a mode it has not. -/
def opcodeAnd : Mode → Byte
  | .imm => 0x29
  | .zp => 0x25
  | .zpX => 0x35
  | .abs => 0x2D
  | .absX => 0x3D
  | .absY => 0x39
  | .indX => 0x21
  | .indY => 0x31
  | .ind => 0x32
  | _ => 0x00

/-- The opcodes of ORA by addressing mode (R345); 0x00 for a mode it has not. -/
def opcodeOra : Mode → Byte
  | .imm => 0x09
  | .zp => 0x05
  | .zpX => 0x15
  | .abs => 0x0D
  | .absX => 0x1D
  | .absY => 0x19
  | .indX => 0x01
  | .indY => 0x11
  | .ind => 0x12
  | _ => 0x00

/-- The opcodes of EOR by addressing mode (R346); 0x00 for a mode it has not. -/
def opcodeEor : Mode → Byte
  | .imm => 0x49
  | .zp => 0x45
  | .zpX => 0x55
  | .abs => 0x4D
  | .absX => 0x5D
  | .absY => 0x59
  | .indX => 0x41
  | .indY => 0x51
  | .ind => 0x52
  | _ => 0x00

/-- The opcodes of CMP by addressing mode (R347); 0x00 for a mode it has not. -/
def opcodeCmp : Mode → Byte
  | .imm => 0xC9
  | .zp => 0xC5
  | .zpX => 0xD5
  | .abs => 0xCD
  | .absX => 0xDD
  | .absY => 0xD9
  | .indX => 0xC1
  | .indY => 0xD1
  | .ind => 0xD2
  | _ => 0x00

/-- The opcodes of CPX by addressing mode (R348); 0x00 for a mode it has not. -/
def opcodeCpx : Mode → Byte
  | .imm => 0xE0
  | .zp => 0xE4
  | .abs => 0xEC
  | _ => 0x00

/-- The opcodes of CPY by addressing mode (R349); 0x00 for a mode it has not. -/
def opcodeCpy : Mode → Byte
  | .imm => 0xC0
  | .zp => 0xC4
  | .abs => 0xCC
  | _ => 0x00

/-- The opcodes of BIT by addressing mode (R350); 0x00 for a mode it has not. -/
def opcodeBit : Mode → Byte
  | .imm => 0x89
  | .zp => 0x24
  | .zpX => 0x34
  | .abs => 0x2C
  | .absX => 0x3C
  | _ => 0x00

/-- The opcodes of ASL by addressing mode (R370); 0x00 for a mode it has not. -/
def opcodeAsl : Mode → Byte
  | .acc => 0x0A
  | .zp => 0x06
  | .zpX => 0x16
  | .abs => 0x0E
  | .absX => 0x1E
  | _ => 0x00

/-- The opcodes of LSR by addressing mode (R371); 0x00 for a mode it has not. -/
def opcodeLsr : Mode → Byte
  | .acc => 0x4A
  | .zp => 0x46
  | .zpX => 0x56
  | .abs => 0x4E
  | .absX => 0x5E
  | _ => 0x00

/-- The opcodes of ROL by addressing mode (R372); 0x00 for a mode it has not. -/
def opcodeRol : Mode → Byte
  | .acc => 0x2A
  | .zp => 0x26
  | .zpX => 0x36
  | .abs => 0x2E
  | .absX => 0x3E
  | _ => 0x00

/-- The opcodes of ROR by addressing mode (R373); 0x00 for a mode it has not. -/
def opcodeRor : Mode → Byte
  | .acc => 0x6A
  | .zp => 0x66
  | .zpX => 0x76
  | .abs => 0x6E
  | .absX => 0x7E
  | _ => 0x00

/-- The opcodes of INC by addressing mode (R374); 0x00 for a mode it has not. -/
def opcodeInc : Mode → Byte
  | .acc => 0x1A
  | .zp => 0xE6
  | .zpX => 0xF6
  | .abs => 0xEE
  | .absX => 0xFE
  | _ => 0x00

/-- The opcodes of DEC by addressing mode (R375); 0x00 for a mode it has not. -/
def opcodeDec : Mode → Byte
  | .acc => 0x3A
  | .zp => 0xC6
  | .zpX => 0xD6
  | .abs => 0xCE
  | .absX => 0xDE
  | _ => 0x00

/-- The opcodes of TSB by addressing mode (R380); 0x00 for a mode it has not. -/
def opcodeTsb : Mode → Byte
  | .zp => 0x04
  | .abs => 0x0C
  | _ => 0x00

/-- The opcodes of TRB by addressing mode (R381); 0x00 for a mode it has not. -/
def opcodeTrb : Mode → Byte
  | .zp => 0x14
  | .abs => 0x1C
  | _ => 0x00

/-- The opcodes of JMP by addressing mode (R412); 0x00 for a mode it has not. -/
def opcodeJmp : Mode → Byte
  | .abs => 0x4C
  | .absInd => 0x6C
  | .absIndX => 0x7C
  | _ => 0x00

/-- The opcode byte of an instruction, from the encodings of its rule (41_load_store R300 to 45_stack R453). -/
def opcodeOf : Instr → Byte
  | .lda m => opcodeLda m
  | .ldx m => opcodeLdx m
  | .ldy m => opcodeLdy m
  | .sta m => opcodeSta m
  | .stx m => opcodeStx m
  | .sty m => opcodeSty m
  | .stz m => opcodeStz m
  | .adc m => opcodeAdc m
  | .sbc m => opcodeSbc m
  | .and m => opcodeAnd m
  | .ora m => opcodeOra m
  | .eor m => opcodeEor m
  | .cmp m => opcodeCmp m
  | .cpx m => opcodeCpx m
  | .cpy m => opcodeCpy m
  | .bit m => opcodeBit m
  | .asl m => opcodeAsl m
  | .lsr m => opcodeLsr m
  | .rol m => opcodeRol m
  | .ror m => opcodeRor m
  | .inc m => opcodeInc m
  | .dec m => opcodeDec m
  | .tsb m => opcodeTsb m
  | .trb m => opcodeTrb m
  | .jmp m => opcodeJmp m
  | .tax => 0xAA
  | .tay => 0xA8
  | .txa => 0x8A
  | .tya => 0x98
  | .tsx => 0xBA
  | .txs => 0x9A
  | .inx => 0xE8
  | .iny => 0xC8
  | .dex => 0xCA
  | .dey => 0x88
  | .rmb0 => 0x07
  | .rmb1 => 0x17
  | .rmb2 => 0x27
  | .rmb3 => 0x37
  | .rmb4 => 0x47
  | .rmb5 => 0x57
  | .rmb6 => 0x67
  | .rmb7 => 0x77
  | .smb0 => 0x87
  | .smb1 => 0x97
  | .smb2 => 0xA7
  | .smb3 => 0xB7
  | .smb4 => 0xC7
  | .smb5 => 0xD7
  | .smb6 => 0xE7
  | .smb7 => 0xF7
  | .bpl => 0x10
  | .bmi => 0x30
  | .bvc => 0x50
  | .bvs => 0x70
  | .bcc => 0x90
  | .bcs => 0xB0
  | .bne => 0xD0
  | .beq => 0xF0
  | .bra => 0x80
  | .bbr0 => 0x0F
  | .bbr1 => 0x1F
  | .bbr2 => 0x2F
  | .bbr3 => 0x3F
  | .bbr4 => 0x4F
  | .bbr5 => 0x5F
  | .bbr6 => 0x6F
  | .bbr7 => 0x7F
  | .bbs0 => 0x8F
  | .bbs1 => 0x9F
  | .bbs2 => 0xAF
  | .bbs3 => 0xBF
  | .bbs4 => 0xCF
  | .bbs5 => 0xDF
  | .bbs6 => 0xEF
  | .bbs7 => 0xFF
  | .jsr => 0x20
  | .rts => 0x60
  | .rti => 0x40
  | .brk => 0x00
  | .pha => 0x48
  | .php => 0x08
  | .phx => 0xDA
  | .phy => 0x5A
  | .pla => 0x68
  | .plp => 0x28
  | .plx => 0xFA
  | .ply => 0x7A
  | .clc => 0x18
  | .sec => 0x38
  | .cli => 0x58
  | .sei => 0x78
  | .cld => 0xD8
  | .sed => 0xF8
  | .clv => 0xB8
  | .nop => 0xEA
  | .nopOne op => op
  | .nopImm op => op
  | .nopZp => 0x44
  | .nopZpX op => op
  | .nopAbs op => op
  | .nop5C => 0x5C
  | .wai => 0xCB
  | .stp => 0xDB

/-- The bytes of an instruction with operand bytes `b1` and `b2`, of which it takes as many as it has
(30_encoding R151). -/
def encode (i : Instr) (b1 b2 : Byte) : List Byte :=
  opcodeOf i :: [b1, b2].take i.operandCount

end Sys2Proof
end

