-- ==== Sys2Proof/Machine/State.lean ====
section
/-! DEFINITION. The state of the machine as plain data (10_state R30 to R76), the reasons a step can stop,
and the state at power-on (10_state R90). -/

namespace Sys2Proof.Machine

/-! ### The CPU (10_state sections 1 and 2) -/

/-- The six stored flags (10_state R35); B and bit 5 of the pushed byte are not stored. -/
structure Flags where
  n : Bool
  v : Bool
  d : Bool
  i : Bool
  z : Bool
  c : Bool
  deriving DecidableEq, Repr

/-- A bus request (40_dispatch R200). -/
inductive BusReq where
  | fetchOpcode (addr : Addr)
  | fetchOperand (addr : Addr)
  | read (addr : Addr)
  | write (addr : Addr) (value : Byte)
  | discard (addr : Addr)
  deriving DecidableEq, Repr

/-- The sequence the CPU executes: an instruction by its opcode, or an interrupt kind (10_state R38). -/
inductive SeqKind where
  | instr (op : Byte)
  | irq
  | nmi
  | reset
  deriving DecidableEq, Repr

/-- The CPU run state (10_state R39). -/
inductive CpuMode where
  | running
  | sleeping
  | waiting
  | stopped
  deriving DecidableEq, Repr

/-- `breakReason` (10_state R40). -/
inductive BreakReason where
  | none
  | next
  | stepIn
  | stepOver
  | stepOut
  | trap
  deriving DecidableEq, Repr

/-- The break-request flags and their bookkeeping (10_state R40, 60_exceptions section 6). -/
structure BreakState where
  /-- `breakNext` -/
  next : Bool
  /-- `breakOnStepIn` -/
  stepIn : Bool
  /-- `breakOnStepOver` -/
  stepOver : Bool
  /-- `breakOnStepOut` -/
  stepOut : Bool
  /-- `breakFromTrap` -/
  fromTrap : Bool
  /-- The remembered stack depth, valid while `stepOver` or `stepOut` is set. -/
  stepSP : Byte
  /-- A step-over has entered a subroutine or handler. -/
  stepDeep : Bool
  /-- A sequence has completed since the flags were last evaluated. -/
  evalPending : Bool
  /-- `breakReason` -/
  reason : BreakReason
  deriving DecidableEq, Repr

/-- The trace record an undefined opcode leaves (10_state R41, 45_stack R446). -/
structure Hiccup where
  pc : Addr
  opcode : Byte
  deriving DecidableEq, Repr

/-- The CPU: its registers, pending mask, suspension state, run state, break control and trace buffer
(10_state R30 to R41). `pend.IRQ` is not stored: it is `State.irqLine` (R37). -/
structure Cpu where
  a : Byte
  x : Byte
  y : Byte
  sp : Byte
  pc : Addr
  flags : Flags
  pendNmi : Bool
  pendReset : Bool
  opcode : SeqKind
  /-- The index of the next bus cycle within the current sequence, counted from 0; 0 at an instruction
  boundary. Cycle "ck" of the spec's sequences is index k - 1. -/
  cycle : Nat
  ea : Addr
  ptr : Addr
  data : Byte
  crossed : Bool
  pendingReq : Option BusReq
  mode : CpuMode
  brk : BreakState
  trace : List Hiccup
  deriving DecidableEq, Repr

/-! ### Events, timers, audio, display, serial (10_state sections 3 and 4) -/

/-- The event kinds (50_event_queue R501); `none` is the "no event" sentinel. -/
inductive EventKind where
  | none
  | timer (n : Nat)
  | audioSample
  | displayDma
  | resetRelease
  deriving DecidableEq, Repr

/-- An event (50_event_queue R500). -/
structure Event where
  kind : EventKind
  tick : Tick
  deriving DecidableEq, Repr

/-- A timer unit (10_state R70). `linking` is not stored: it is `clockDivider = 7` (51_timers R521). -/
structure TimerUnit where
  backup : Byte
  count : Byte
  countEnabled : Bool
  reloadEnabled : Bool
  interruptEnabled : Bool
  clockDivider : BitVec 3
  baseTick : Tick
  expectedFireTick : Tick
  done : Bool
  deriving DecidableEq, Repr

/-- An audio channel (10_state R71); `volume` and `lastOutput` hold signed bytes. -/
structure AudioChannel where
  shift : BitVec 12
  tapMask : BitVec 12
  volume : Byte
  integrateEnabled : Bool
  lastOutput : Byte
  lastParity : Bool
  deriving DecidableEq, Repr

/-- The display sequencer (10_state R72). -/
structure Display where
  dispctl : Byte
  dispadr : Addr
  row : Nat
  dmaAddr : Addr
  beatsLeft : Nat
  rowStartTick : Tick
  lineBuf : List Byte
  emitted : Nat
  deriving DecidableEq, Repr

/-- A call of the video sink (53_display R609). -/
inductive VideoCall where
  | newFrame
  | newRow (row : Nat)
  | emitScreenData (bytes : List Byte)
  | updateColorReg (reg : Nat) (value : Byte)
  deriving DecidableEq, Repr

/-- The serial glue (10_state R74). -/
structure Serial where
  ctl : Byte
  txBusy : Bool
  rxData : Byte
  rxReady : Bool
  deriving DecidableEq, Repr

/-- The audio-sample state of `advanceAudio` (10_state R66); the buffer's length is `K`. -/
structure Sampling where
  active : Bool
  buf : List Int
  idx : Nat
  rate : Nat
  start : Tick
  deriving DecidableEq, Repr

/-- A trap (55_system R708): the access kinds and addresses it is registered on, and the number of its
pure function among the host's functions (`Config.trapFn`, log 7). -/
structure Trap where
  onFetch : Bool
  onRead : Bool
  onDiscard : Bool
  onWrite : Bool
  addrs : List Addr
  fn : Nat
  deriving DecidableEq, Repr

/-- How a `run` ended (55_system R717). -/
inductive RunExit where
  /-- `BREAK(reason)` -/
  | brk (reason : BreakReason)
  | audioFull
  | stalled
  /-- `REFUSED(a)`: a CPU access to a register of the Lynx whose behaviour no source gives
  (54_controller_chip R668). -/
  | refused (a : Addr)
  deriving DecidableEq, Repr

/-- A bus cycle the CPU has had resolved, with the byte read or written. -/
structure BusRecord where
  kind : BusKind
  addr : Addr
  value : Byte
  deriving DecidableEq, Repr

/-- The state of the machine. -/
structure State where
  /-- The implementation parameters (the model's own field, constant: log 11). -/
  params : Params
  cpu : Cpu
  now : Tick
  /-- RAM: the bytes written since power-on, addresses strictly rising (log 4). -/
  ram : List Host.Cell
  /-- ROM: the bytes the host has supplied, offsets strictly rising (log 5). -/
  rom : List Host.Cell
  mapctl : Byte
  queue : List Event
  sampling : Sampling
  resetDeferred : Bool
  resetLine : Bool
  suzy : Suzy
  traps : List Trap
  /-- The level of `NMI_IN` (60_exceptions R757). -/
  nmiIn : Bool
  /-- The level of the input pins `IO_IN` (54_controller_chip R664). -/
  ioIn : Byte
  /-- Kind and address of the previous CPU bus cycle (55_system R703 step 4). -/
  prevBus : Option (BusKind × Addr)
  timers : Vector TimerUnit 12
  audio : Vector AudioChannel 4
  display : Display
  irqLatch : Byte
  serial : Serial
  ioDir : Byte
  ioDat : Byte
  atten : Vector Byte 4
  mpan : Byte
  mstereo : Byte
  green : Vector Byte 16
  bluered : Vector Byte 16
  /-- Output: the video-sink calls, oldest first (53_display R609). -/
  video : List VideoCall
  /-- Output: the bytes sent to `SERIAL_TX`, oldest first (54_controller_chip R661). -/
  serialOut : List Byte
  /-- Output: how the current `run` has ended, `none` while it goes on (55_system R717). -/
  runExit : Option RunExit
  /-- How many ties of the event queue have been broken (the model's own field: log 12). -/
  tieCount : Nat
  /-- The CPU bus cycles resolved, oldest first (the model's own field: log 9). -/
  busLog : List BusRecord
  deriving DecidableEq, Repr

/-! ### The reasons a step can stop -/

/-- Why the machine stops with a fault. -/
inductive Fault where
  /-- An event names a timer unit outside 0 to 11: raised by the dispatch of events. The source calls
  it a programming error that cannot occur (93_implementation_defined U8). Safe. -/
  | timerIndexOutOfRange (n : Nat)
  deriving DecidableEq, Repr

/-- Why the machine refuses a step. -/
inductive Refusal where
  /-- An instruction without a meaning in this model: raised by `exec`. Safe. -/
  | notModelled (mnemonic : String)
  /-- A term that no opcode encodes: raised by a meaning, never after a decode. Safe. -/
  | illFormed
  /-- The `run` has ended and the host has not called it again: raised by `step` (55_system R717).
  Safe. -/
  | runExited
  /-- `advance` with a request outstanding, as a `run` that ended with `REFUSED(a)` leaves it: raised by the
  CPU when the host runs it on (55_system R703, R712). Safe. -/
  | requestOutstanding
  /-- `respond` with no request outstanding: raised by the CPU (55_system R712). Safe. -/
  | noRequestOutstanding
  /-- `advanceAudio` with a sample rate of 0: raised by the host call (55_system R712). Safe. -/
  | sampleRateZero
  deriving DecidableEq, Repr

/-- The outcome of an operation that gives an `α`. -/
abbrev Res (α : Type) := Host.Outcome α Fault Refusal

/-! ### Power-on (10_state R90) -/

/-- Every flag 0. -/
def Flags.zero : Flags := ⟨false, false, false, false, false, false⟩

/-- No break armed, none reported. -/
def BreakState.idle : BreakState where
  next := false
  stepIn := false
  stepOver := false
  stepOut := false
  fromTrap := false
  stepSP := 0
  stepDeep := false
  evalPending := false
  reason := .none

/-- The CPU at power-on: a RESET is pending. -/
def Cpu.powerOn : Cpu where
  a := 0
  x := 0
  y := 0
  sp := 0
  pc := 0
  flags := Flags.zero
  pendNmi := false
  pendReset := true
  opcode := .instr 0
  cycle := 0
  ea := 0
  ptr := 0
  data := 0
  crossed := false
  pendingReq := none
  mode := .running
  brk := BreakState.idle
  trace := []

/-- A timer unit at power-on: every field 0 or false. -/
def TimerUnit.zero : TimerUnit := ⟨0, 0, false, false, false, 0, 0, 0, false⟩

/-- An audio channel at power-on: every field 0. -/
def AudioChannel.zero : AudioChannel := ⟨0, 0, 0, false, 0, false⟩

/-- The machine at power-on (10_state R90), with the default parameters, a `run(FREE)` in progress and
an idle sprite device (log 2, log 6, log 8, log 10). -/
def State.reset : State where
  params := Params.default
  cpu := Cpu.powerOn
  now := 0
  ram := []
  rom := []
  mapctl := 0
  queue := []
  sampling := ⟨false, [], 0, 0, 0⟩
  resetDeferred := false
  resetLine := false
  suzy := ⟨false, Config.suzyInit⟩
  traps := []
  nmiIn := false
  ioIn := Config.ioInInit
  prevBus := none
  timers := Vector.replicate 12 TimerUnit.zero
  audio := Vector.replicate 4 AudioChannel.zero
  display := ⟨0, 0, 0, 0, 0, 0, [], 0⟩
  irqLatch := 0
  serial := ⟨0, false, 0, false⟩
  ioDir := 0
  ioDat := 0
  atten := Vector.replicate 4 0
  mpan := 0
  mstereo := 0
  green := Vector.replicate 16 0
  bluered := Vector.replicate 16 0
  video := []
  serialOut := []
  runExit := none
  tieCount := 0
  busLog := []

end Sys2Proof.Machine
end

