-- ==== Sys2Proof/Machine/Ops.lean ====
section
/-! DEFINITION. The named operations over bytes, memory and registers; the bus cycles the sequences are
made of; entering a handler (IRQ, NMI, BRK), the reset sequence and the return from interrupt. -/

namespace Sys2Proof.Machine

/-! ### Bytes and words (00_scope section 6, 20_memory R111) -/

/-- `{h, l}`. -/
def word (h l : Byte) : Addr := h ++ l

/-- Bits 15 to 8. -/
def hiByte (a : Addr) : Byte := a.extractLsb' 8 8

/-- Bits 7 to 0. -/
def loByte (a : Addr) : Byte := a.extractLsb' 0 8

/-- Zero extension to 16 bits: an address of page 0x00. -/
def zext16 (b : Byte) : Addr := b.setWidth 16

/-- Sign extension to 16 bits. -/
def sext16 (b : Byte) : Addr := b.signExtend 16

/-- The stack address of a stack pointer value, in page 0x01 (10_state R33). -/
def stackAddr (sp : Byte) : Addr := word 0x01 sp

/-- The vectors (60_exceptions R750). -/
def nmiVector : Addr := 0xFFFA
def resetVector : Addr := 0xFFFC
def irqVector : Addr := 0xFFFE

/-! ### Memory as a canonical list of cells (log 4) -/

/-- The byte listed at an address, if one is. -/
def Memory.get? : List Host.Cell → Nat → Option Byte
  | [], _ => none
  | (a, v) :: m, k => if k = a then some v else Memory.get? m k

/-- Lists a byte at an address, keeping the addresses strictly rising. -/
def Memory.put : List Host.Cell → Nat → Byte → List Host.Cell
  | [], k, v => [(k, v)]
  | (a, w) :: m, k, v =>
    if k < a then (k, v) :: (a, w) :: m
    else if k = a then (k, v) :: m
    else (a, w) :: Memory.put m k v

/-- Every listed address is above `lo`, below `size`, and the addresses rise strictly. -/
def Memory.wfFrom (size : Nat) : Nat → List Host.Cell → Bool
  | _, [] => true
  | lo, (a, _) :: m => decide (lo ≤ a) && decide (a < size) && Memory.wfFrom size (a + 1) m

/-- The canonical form of a memory of `size` bytes: strictly rising addresses below `size`. An unlisted
address reads as a free value, which no byte can be shown equal to (log 4). -/
def Memory.wf (size : Nat) (m : List Host.Cell) : Bool := Memory.wfFrom size 0 m

/-- What a RAM address reads as that nothing has written: INIT_RAM (10_state R90). -/
def unlistedRam (a : Nat) : Byte := Config.initRam a

/-- What a ROM offset reads as that the host has not supplied: ROM_IMAGE (10_state R90). -/
def unlistedRom (o : Nat) : Byte := Config.romImage o

/-- `RAM[a]`. -/
def ramRead (m : List Host.Cell) (a : Addr) : Byte :=
  (Memory.get? m a.toNat).getD (unlistedRam a.toNat)

/-- `RAM[a] <- v`. -/
def ramWrite (m : List Host.Cell) (a : Addr) (v : Byte) : List Host.Cell := Memory.put m a.toNat v

/-- The ROM offset of an address: `a - 0xFE00` within the 512 bytes (20_memory R104). -/
def romOffset (a : Addr) : Nat := a.toNat % 512

/-- `ROM[a - 0xFE00]` (20_memory R104). -/
def romRead (m : List Host.Cell) (a : Addr) : Byte :=
  (Memory.get? m (romOffset a)).getD (unlistedRom (romOffset a))

/-! ### The request of a bus cycle -/

/-- The kind of a request (40_dispatch R200). -/
def BusReq.kind : BusReq → BusKind
  | .fetchOpcode _ => .fetchOpcode
  | .fetchOperand _ => .fetchOperand
  | .read _ => .read
  | .write _ _ => .write
  | .discard _ => .discard

/-- The address of a request (40_dispatch R200). -/
def BusReq.addr : BusReq → Addr
  | .fetchOpcode a | .fetchOperand a | .read a | .write a _ | .discard a => a

/-! ### Bus cycles of a sequence (40_dispatch R200 to R206) -/

/-- One bus cycle of a sequence: its request, and the CPU state after it from the byte that answers it
and the CPU state before it. The CPU touches nothing but itself and the bus (R201). -/
structure Cycle where
  req : BusReq
  done : Byte → Cpu → Cpu

/-- A bus sequence: the cycle to run next, a function of the CPU state (R201). -/
abbrev Seq := Params → Cpu → Cycle

/-- The sequence goes on with the cycle of index `k`. -/
def Cpu.goto (k : Nat) (c : Cpu) : Cpu := { c with cycle := k }

/-- The last cycle of a sequence is answered: the CPU is at a boundary (R206, 60_exceptions R780). -/
def Cpu.finish (c : Cpu) : Cpu := { c with cycle := 0, brk := { c.brk with evalPending := true } }

/-- `Operand() -> b`: a FETCH_OPERAND at PC, which then advances (R204). -/
def operandCycle (c : Cpu) (k : Byte → Cpu → Cpu) : Cycle :=
  ⟨.fetchOperand c.pc, fun v c => k v { c with pc := c.pc + 1 }⟩

/-- `Read(a) -> v` (R205). -/
def readCycle (a : Addr) (k : Byte → Cpu → Cpu) : Cycle := ⟨.read a, k⟩

/-- `Dummy(a)`, a DISCARD_READ (R205). -/
def dummyCycle (a : Addr) (k : Cpu → Cpu) : Cycle := ⟨.discard a, fun _ c => k c⟩

/-- `Write(a, v)` (R205). -/
def writeCycle (a : Addr) (v : Byte) (k : Cpu → Cpu) : Cycle := ⟨.write a v, fun _ c => k c⟩

/-- `Write(0x0100 + S, v); S <- S - 1` (10_state R33). -/
def pushCycle (c : Cpu) (v : Byte) (k : Cpu → Cpu) : Cycle :=
  writeCycle (stackAddr c.sp) v fun c => k { c with sp := c.sp - 1 }

/-- `S <- S + 1; Read(0x0100 + S) -> v` (10_state R33). -/
def pullCycle (c : Cpu) (k : Byte → Cpu → Cpu) : Cycle :=
  readCycle (stackAddr (c.sp + 1)) fun v c => k v { c with sp := c.sp + 1 }

/-! ### The status byte (10_state R35) -/

/-- `P = {N, V, 1, B, D, I, Z, C}`. -/
def Flags.pack (b : Bool) (f : Flags) : Byte :=
  BitVec.ofBool f.n ++ BitVec.ofBool f.v ++ 1#1 ++ BitVec.ofBool b ++ BitVec.ofBool f.d ++
    BitVec.ofBool f.i ++ BitVec.ofBool f.z ++ BitVec.ofBool f.c

/-- The flags of a pulled status byte; bits 5 and 4 are ignored. -/
def Flags.unpack (p : Byte) : Flags where
  n := p.getLsbD 7
  v := p.getLsbD 6
  d := p.getLsbD 3
  i := p.getLsbD 2
  z := p.getLsbD 1
  c := p.getLsbD 0

/-- The flags on entry to a handler: `I <- 1; D <- 0` (60_exceptions R751, R752, 44_control R418). -/
def Flags.entered (f : Flags) : Flags := { f with i := true, d := false }

/-! ### Taking an exception -/

/-- Cycles c3 to c7 (indices 2 to 6) of taking an IRQ, an NMI or a BRK: push PC and P with the given B,
set I and clear D, and load PC from the vector (60_exceptions R751, 40_dispatch R238). -/
def enterHandler (b : Bool) (vector : Addr) (c : Cpu) : Cycle :=
  match c.cycle with
  | 2 => pushCycle c (hiByte c.pc) (Cpu.goto 3)
  | 3 => pushCycle c (loByte c.pc) (Cpu.goto 4)
  | 4 => pushCycle c (c.flags.pack b) fun c => { c with flags := c.flags.entered }.goto 5
  | 5 => readCycle vector fun lo c => { c with ea := word 0 lo }.goto 6
  | _ => readCycle (vector + 1) fun hi c => { c with pc := word hi (loByte c.ea) }.finish

/-- The IRQ and NMI sequence (60_exceptions R751). -/
def interruptSeq (vector : Addr) : Seq := fun _ c =>
  match c.cycle with
  | 0 => dummyCycle c.pc (Cpu.goto 1)
  | 1 => dummyCycle c.pc (Cpu.goto 2)
  | _ => enterHandler false vector c

/-- The RESET sequence (60_exceptions R752): three dummy stack reads in place of the pushes. -/
def resetSeq : Seq := fun _ c =>
  match c.cycle with
  | 0 => dummyCycle c.pc (Cpu.goto 1)
  | 1 => dummyCycle c.pc (Cpu.goto 2)
  | 2 => dummyCycle (stackAddr c.sp) fun c => { c with sp := c.sp - 1 }.goto 3
  | 3 => dummyCycle (stackAddr c.sp) fun c => { c with sp := c.sp - 1 }.goto 4
  | 4 => dummyCycle (stackAddr c.sp) fun c => { c with sp := c.sp - 1 }.goto 5
  | 5 => readCycle resetVector fun lo c => { c with ea := word 0 lo }.goto 6
  | _ => readCycle (resetVector + 1) fun hi c =>
      { c with pc := word hi (loByte c.ea), flags := c.flags.entered }.finish

/-- The return from IRQ, NMI and BRK: pull P, then PC, which is not incremented (40_dispatch R237). -/
def returnSeq : Seq := fun _ c =>
  match c.cycle with
  | 0 | 1 => dummyCycle c.pc (Cpu.goto 2)
  | 2 => dummyCycle (stackAddr c.sp) (Cpu.goto 3)
  | 3 => pullCycle c fun p c => { c with flags := Flags.unpack p }.goto 4
  | 4 => pullCycle c fun lo c => { c with data := lo }.goto 5
  | _ => pullCycle c fun hi c => { c with pc := word hi c.data }.finish

/-! ### The CPU's side of the bus protocol (40_dispatch R201) -/

/-- `advance()` inside a sequence: the next request, and the CPU state with it outstanding. -/
def Cpu.advance (q : Seq) (p : Params) (c : Cpu) : Res (BusReq × Cpu) :=
  match c.pendingReq with
  | some _ => .refused .requestOutstanding
  | none => .next ((q p c).req, { c with pendingReq := some (q p c).req })

/-- `respond(v)`: the CPU state after the outstanding request is answered. -/
def Cpu.respond (q : Seq) (p : Params) (v : Byte) (c : Cpu) : Res Cpu :=
  match c.pendingReq with
  | none => .refused .noRequestOutstanding
  | some _ =>
    let c := { c with pendingReq := none }
    .next { (q p c).done v c with pendingReq := none }

/-- Goes on with the answer of an operation that answered. -/
def Res.bind {α β : Type} (o : Res α) (f : α → Res β) : Res β :=
  match o with
  | .next a => f a
  | .fault r => .fault r
  | .refused r => .refused r

end Sys2Proof.Machine
end

