-- ==== Sys2Proof/Machine/Queue.lean ====
section
/-! DEFINITION. The event queue (50_event_queue R500 to R510): a multiset of events, held as a list in
rising order of tick and then of kind code. -/

namespace Sys2Proof.Machine

/-- The code of an event kind (50_event_queue R501). A timer index above 11, which no event has, gets a
code of its own past the table. -/
def EventKind.code : EventKind → Nat
  | .none => 0
  | .timer n => if n < 12 then n + 1 else n + 4
  | .audioSample => 13
  | .displayDma => 14
  | .resetRelease => 15

/-- The order the queue is listed in. -/
def Event.before (e f : Event) : Bool :=
  decide (e.tick < f.tick) || (decide (e.tick = f.tick) && decide (e.kind.code ≤ f.kind.code))

/-- The tick `d` ticks after `t` on a counter that never decreases (10_state R60, 55_system R705). A sum that
leaves the 64 bits has no stated value: it is a free value later than `t`, where there is a later tick (log 3). -/
def advanceTick (t : Tick) (d : Nat) : Tick :=
  if t.toNat + d < 2 ^ 64 then t + BitVec.ofNat 64 d
  else if t < Config.tickPastEnd t d then Config.tickPastEnd t d
  else if t = BitVec.allOnes 64 then t
  else t + 1

/-- `push(e)` (50_event_queue R502). -/
def push (e : Event) : List Event → List Event
  | [] => [e]
  | f :: q => if e.before f then e :: f :: q else f :: push e q

/-- Pushes a list of events (50_event_queue R510). -/
def pushAll (es : List Event) (q : List Event) : List Event := es.foldl (fun q e => push e q) q

/-- `peekEarliestTick()` (50_event_queue R503): the sentinel kind is skipped. -/
def peekEarliestTick : List Event → Option Tick
  | [] => none
  | e :: q =>
    if e.kind = .none then peekEarliestTick q
    else match peekEarliestTick q with
      | none => some e.tick
      | some t => some (if e.tick ≤ t then e.tick else t)

/-- The events `popEarliest` may return: those of the least tick (50_event_queue R504). -/
def earliestEvents (q : List Event) : List Event :=
  match peekEarliestTick q with
  | none => []
  | some t => q.filter fun e => decide (e.kind ≠ .none) && decide (e.tick = t)

/-- The empty sentinel (50_event_queue R504). -/
def Event.sentinel : Event := ⟨.none, 0⟩

/-- `popEarliest()` with `ties` ties broken so far (50_event_queue R504): the event, the queue without
it, and the new count of ties. Among several events of the least tick the free choice `TIE_ORDER`
picks (log 12). -/
def popEarliest (ties : Nat) (q : List Event) : Event × List Event × Nat :=
  match earliestEvents q with
  | [] => (Event.sentinel, q, ties)
  | [e] => (e, q.erase e, ties)
  | e :: f :: es =>
    let l := e :: f :: es
    let x := l.getD (Config.tieOrder ties % l.length) e
    (x, q.erase x, ties + 1)

/-- `cancel(k)` (50_event_queue R505): a cancelled entry is never dispatched, so it is deleted. -/
def cancel (k : EventKind) (q : List Event) : List Event := q.filter fun e => decide (e.kind ≠ k)

/-- The queue's form: in order, no cancelled entry, and every timer index one of the twelve. -/
def queueWf : List Event → Bool
  | [] => true
  | e :: q =>
    decide (e.kind ≠ .none) && (match e.kind with | .timer n => decide (n < 12) | _ => true) &&
      (match q with | [] => true | f :: _ => e.before f) && queueWf q

/-- An operation's new state and the events it yields, which the System pushes (50_event_queue R510). -/
abbrev Yield := State × List Event

/-- The System pushes the events an operation yielded (50_event_queue R510). -/
def Yield.commit (y : Yield) : State := { y.1 with queue := pushAll y.2 y.1.queue }

/-- Some event's tick has arrived (55_system R700 step 1). -/
def State.eventDue (s : State) : Bool :=
  match peekEarliestTick s.queue with
  | some e => decide (e ≤ s.now)
  | none => false

end Sys2Proof.Machine
end

