-- ==== Sys2Proof/Machine/Audio.lean ====
section
/-! DEFINITION. The audio channels (52_audio R570 to R581) and the audio-sample event (55_system R710). -/

namespace Sys2Proof.Machine

/-- The exclusive or of the bits of a 12-bit value (52_audio R575 step 1). -/
def parity12 (b : BitVec 12) : Bool :=
  (List.range 12).foldl (fun p i => xor p (b.getLsbD i)) false

/-- The new bit of a trigger: the parity of the tapped bits, inverted by `LFSR_INVERT` (52_audio R575
steps 1 and 2). -/
def AudioChannel.newBit (invert : Bool) (ch : AudioChannel) : Bool :=
  xor (parity12 (ch.shift &&& ch.tapMask)) invert

/-- `clamp(x, -128, 127)` as a signed byte (52_audio R575 step 5). -/
def clamp8 (x : Int) : Byte := BitVec.ofInt 8 (max (-128) (min 127 x))

/-- `nb == 1 ? volume : neg8(volume)` (52_audio R575). -/
def AudioChannel.signedVolume (ch : AudioChannel) (nb : Bool) : Byte :=
  if nb then ch.volume else -ch.volume

/-- `trigger` (52_audio R575). -/
def AudioChannel.trigger (invert : Bool) (ch : AudioChannel) : AudioChannel :=
  let nb := ch.newBit invert
  let v := ch.signedVolume nb
  { ch with
    shift := (ch.shift <<< 1) ||| (BitVec.ofBool nb).setWidth 12
    lastParity := nb
    lastOutput := if ch.integrateEnabled then clamp8 (ch.lastOutput.toInt + v.toInt) else v }

/-- `AU[n].trigger(t)` (52_audio R575). -/
def audioTrigger (n : Fin 4) (s : State) : State :=
  { s with audio := s.audio.set n ((s.audio.get n).trigger s.params.lfsrInvert) }

/-! ### The channel registers (52_audio R572 to R580), but for those of its timer -/

/-- FEEDBACK write (52_audio R573). -/
def AudioChannel.setFeedback (v : Byte) (ch : AudioChannel) : AudioChannel :=
  { ch with tapMask :=
      v.extractLsb' 6 2 ++ 0#2 ++ ch.tapMask.extractLsb' 7 1 ++ 0#1 ++ v.extractLsb' 0 6 }

/-- FEEDBACK read (52_audio R573). -/
def AudioChannel.feedback (ch : AudioChannel) : Byte :=
  ch.tapMask.extractLsb' 10 2 ++ ch.tapMask.extractLsb' 0 6

/-- SHIFT write: bits 11 to 8 stay (52_audio R576). -/
def AudioChannel.setShiftLow (v : Byte) (ch : AudioChannel) : AudioChannel :=
  { ch with shift := ch.shift.extractLsb' 8 4 ++ v }

/-- The channel's part of an OTHER write (52_audio R580). -/
def AudioChannel.setShiftHigh (v : Byte) (ch : AudioChannel) : AudioChannel :=
  { ch with shift := v.extractLsb' 4 4 ++ ch.shift.extractLsb' 0 8 }

/-- The channel's part of a CONTROL write: feedback tap 7 and integrate (52_audio R578). -/
def AudioChannel.setControl (v : Byte) (ch : AudioChannel) : AudioChannel :=
  { ch with
    tapMask := ch.tapMask.extractLsb' 8 4 ++ v.extractLsb' 7 1 ++ ch.tapMask.extractLsb' 0 7
    integrateEnabled := v.getLsbD 5 }

/-- Changes channel `n`. -/
def State.updateAudio (n : Fin 4) (f : AudioChannel → AudioChannel) (s : State) : State :=
  { s with audio := s.audio.set n (f (s.audio.get n)) }

/-! ### Sampling (55_system R710) -/

/-- The tick of sample `i`: `sampleStart + floor((i + 1) * TICKS_PER_SECOND / R)` (55_system R709). -/
def State.sampleTick (s : State) (i : Nat) : Tick :=
  s.sampling.start + BitVec.ofNat 64 ((i + 1) * s.params.ticksPerSecond / s.sampling.rate)

/-- The sample mixed now (55_system R710, 52_audio R581). -/
def State.mixSample (s : State) : Int :=
  Config.mix (s.audio.toList.map (·.lastOutput)) s.atten.toList s.mpan s.mstereo

/-- Dispatch of AUDIO_SAMPLE (55_system R710). -/
def audioSample (s : State) : Yield :=
  let i := s.sampling.idx
  if i < s.sampling.buf.length then
    let s' := { s with sampling :=
      { s.sampling with buf := s.sampling.buf.set i s.mixSample, idx := i + 1 } }
    (s', if i + 1 < s.sampling.buf.length then [⟨.audioSample, s.sampleTick (i + 1)⟩] else [])
  else (s, [])

end Sys2Proof.Machine
end

