-- ==== Sys2Proof/Machine/Display.lean ====
section
/-! DEFINITION. The display DMA sequencer (53_display R600 to R610). -/

namespace Sys2Proof.Machine

/-- A call of the video sink (53_display R609). -/
def State.sink (c : VideoCall) (s : State) : State := { s with video := s.video ++ [c] }

/-- Emits the bytes of `lineBuf` from `emitted` up to `k` and moves `emitted` past them; with no such
byte nothing is emitted (53_display R601, R606, log 15). -/
def emitUpTo (k : Nat) (s : State) : State :=
  if s.display.emitted < k then
    { s with display := { s.display with emitted := k } }.sink
      (.emitScreenData ((s.display.lineBuf.take k).drop s.display.emitted))
  else s

/-- Emits the bytes of `lineBuf` not yet emitted (53_display R601 step 1). -/
def flush (s : State) : State := emitUpTo s.display.lineBuf.length s

/-- `cancel(DISPLAY_DMA)` (53_display R601 step 2). -/
def State.cancelDma (s : State) : State := { s with queue := cancel .displayDma s.queue }

/-- `vblank(t)` (53_display R601); with no byte fetched none is emitted (log 15). -/
def vblank (s : State) : State :=
  let s := (flush s).cancelDma.sink .newFrame
  { s with display := { s.display with row := 0, lineBuf := [], beatsLeft := 0, emitted := 0 } }

/-- The first DMA address of the current row (53_display R602 step 4). -/
def State.rowAddr (s : State) : Addr :=
  BitVec.ofNat 16 (s.display.dispadr.toNat + s.display.row * s.params.rowBytes)

/-- Steps 1 to 3 of `hblank(t)` (53_display R602). -/
def hblankStart (t : Tick) (s : State) : State :=
  let s := (flush s).cancelDma.sink (.newRow s.display.row)
  { s with display := { s.display with rowStartTick := t, lineBuf := [], emitted := 0 } }

/-- The row gets DMA (53_display R602 step 4). -/
def State.rowHasDma (s : State) : Bool :=
  s.display.dispctl.getLsbD 0 && decide (s.display.row < s.params.visibleRows)

/-- The row counter after an hblank: it saturates (53_display R602 step 5). -/
def nextRow (row : Nat) : Nat := min (row + 1) 65535

/-- `hblank(t)` (53_display R602). -/
def hblank (t : Tick) (s : State) : Yield :=
  let s := hblankStart t s
  let a := s.rowAddr
  let row' := nextRow s.display.row
  if s.rowHasDma then
    ({ s with display :=
        { s.display with dmaAddr := a, beatsLeft := s.params.dmaBeats, row := row' } },
      [⟨.displayDma, t + BitVec.ofNat 64 (Config.dmaStartOffset a)⟩])
  else ({ s with display := { s.display with row := row' } }, [])

/-- The `n` RAM bytes from `a` on, whatever MAPCTL says (53_display R604 step 1, 20_memory R110). -/
def dmaBytes (ram : List Host.Cell) (a : Addr) (n : Nat) : List Byte :=
  (List.range n).map fun i => ramRead ram (a + BitVec.ofNat 16 i)

/-- `pushData(t, bytes)` (53_display R605). -/
def pushData (t : Tick) (bytes : List Byte) (s : State) : Yield :=
  let left := s.display.beatsLeft - 1
  ({ s with display :=
      { s.display with
        lineBuf := s.display.lineBuf ++ bytes
        dmaAddr := s.display.dmaAddr + BitVec.ofNat 16 s.params.beatBytes
        beatsLeft := left } },
    if 0 < left then [⟨.displayDma, t + BitVec.ofNat 64 Config.dmaBeatSpacing⟩] else [])

/-- Dispatch of DISPLAY_DMA at its tick (53_display R604). -/
def displayDma (t : Tick) (s : State) : Yield :=
  if s.display.beatsLeft = 0 then (s, [])
  else
    pushData t (dmaBytes s.ram s.display.dmaAddr s.params.beatBytes)
      { s with now := advanceTick s.now Config.dmaCpuCost }

/-- The byte up to which a palette write at tick `t` emits (53_display R606). -/
def State.paletteByte (t : Tick) (s : State) : Nat :=
  min s.display.lineBuf.length
    (min (Config.pixelColumn t s.display.rowStartTick) (2 * s.params.rowBytes) / 2)

/-- `updatePalette(t, reg, value)` (53_display R606). -/
def updatePalette (t : Tick) (reg : Nat) (v : Byte) (s : State) : State :=
  (emitUpTo (s.paletteByte t) s).sink (.updateColorReg reg v)

end Sys2Proof.Machine
end

