-- ==== Sys2Proof/Machine/Flags.lean ====
section
/-! DEFINITION. The results and flags of the operations: 42_alu R340 to R350 and 43_rmw R370 to R383, as
functions of bytes and flags. -/

namespace Sys2Proof.Machine

/-- `N <- r[7]; Z <- (r == 0)`. -/
def Flags.setNZ (f : Flags) (r : Byte) : Flags := { f with n := r.msb, z := decide (r = 0) }

/-! ### Add and subtract -/

/-- ADC with D = 0 (42_alu R340). -/
def adcBinary (f : Flags) (a v : Byte) : Byte × Flags :=
  let t := a.toNat + v.toNat + f.c.toNat
  let r := BitVec.ofNat 8 t
  (r, ({ f with v := ((a ^^^ r) &&& (v ^^^ r)).msb, c := decide (t > 0xFF) }).setNZ r)

/-- The adjusted low digit sum `lo` of decimal ADC (42_alu R341). -/
def adcDecimalLow (f : Flags) (a v : Byte) : Nat :=
  let lo := (a &&& 0x0F).toNat + (v &&& 0x0F).toNat + f.c.toNat
  if lo ≥ 0x0A then (lo + 0x06) % 16 + 0x10 else lo

/-- ADC with D = 1 (42_alu R341). -/
def adcDecimal (f : Flags) (a v : Byte) : Byte × Flags :=
  let lo := adcDecimalLow f a v
  let s := (a &&& 0xF0).toNat + (v &&& 0xF0).toNat + lo
  let ss : Int := (a &&& 0xF0).toInt + (v &&& 0xF0).toInt + lo
  let s' := if s ≥ 0xA0 then s + 0x60 else s
  let r := BitVec.ofNat 8 s'
  (r, ({ f with v := decide (ss < -128 ∨ ss > 127), c := decide (s' ≥ 0x100) }).setNZ r)

/-- ADC (42_alu R340, R341). -/
def adc (f : Flags) (a v : Byte) : Byte × Flags := if f.d then adcDecimal f a v else adcBinary f a v

/-- SBC with D = 0: the binary sum with `w = v ^ 0xFF` (42_alu R342). -/
def sbcBinary (f : Flags) (a v : Byte) : Byte × Flags := adcBinary f a (v ^^^ 0xFF)

/-- The decimal result of SBC (42_alu R343). -/
def sbcDecimalResult (f : Flags) (a v : Byte) : Byte :=
  let lo : Int := (a &&& 0x0F).toNat - (v &&& 0x0F).toNat + f.c.toNat - 1
  let s : Int := (a.toNat : Int) - v.toNat + f.c.toNat - 1
  let s := if s < 0 then s - 0x60 else s
  let s := if lo < 0 then s - 0x06 else s
  BitVec.ofInt 8 s

/-- SBC with D = 1: C and V as the binary SBC sets them (42_alu R343). -/
def sbcDecimal (f : Flags) (a v : Byte) : Byte × Flags :=
  let r := sbcDecimalResult f a v
  (r, (sbcBinary f a v).2.setNZ r)

/-- SBC (42_alu R342, R343). -/
def sbc (f : Flags) (a v : Byte) : Byte × Flags := if f.d then sbcDecimal f a v else sbcBinary f a v

/-! ### Compare and bit test -/

/-- The flags of CMP, CPX and CPY of register value `r` with `v` (42_alu R347). -/
def compareFlags (f : Flags) (r v : Byte) : Flags :=
  { f with n := (r - v).msb, z := decide (r = v), c := decide (v ≤ r) }

/-- The flag of the immediate BIT (42_alu R350). -/
def bitImmFlags (f : Flags) (a v : Byte) : Flags := { f with z := decide (a &&& v = 0) }

/-- The flags of BIT from memory (42_alu R350). -/
def bitMemFlags (f : Flags) (a v : Byte) : Flags :=
  { f with z := decide (a &&& v = 0), n := v.getLsbD 7, v := v.getLsbD 6 }

/-! ### Shifts, increments, bit set and reset: the byte to write back, and the flags -/

/-- ASL (43_rmw R370). -/
def asl (f : Flags) (v : Byte) : Byte × Flags :=
  let r := v <<< 1
  (r, ({ f with c := v.getLsbD 7 }).setNZ r)

/-- LSR (43_rmw R371). -/
def lsr (f : Flags) (v : Byte) : Byte × Flags :=
  let r := v >>> 1
  (r, { f with c := v.getLsbD 0, n := false, z := decide (r = 0) })

/-- ROL (43_rmw R372). -/
def rol (f : Flags) (v : Byte) : Byte × Flags :=
  let r := (v <<< 1) ||| (BitVec.ofBool f.c).setWidth 8
  (r, ({ f with c := v.getLsbD 7 }).setNZ r)

/-- ROR (43_rmw R373). -/
def ror (f : Flags) (v : Byte) : Byte × Flags :=
  let r := ((BitVec.ofBool f.c).setWidth 8 <<< 7) ||| (v >>> 1)
  (r, ({ f with c := v.getLsbD 0 }).setNZ r)

/-- INC, INX, INY (43_rmw R374, R376, R377). -/
def incByte (f : Flags) (v : Byte) : Byte × Flags := (v + 1, f.setNZ (v + 1))

/-- DEC, DEX, DEY (43_rmw R375, R378, R379). -/
def decByte (f : Flags) (v : Byte) : Byte × Flags := (v - 1, f.setNZ (v - 1))

/-- TSB with accumulator `a` (43_rmw R380). -/
def tsb (a : Byte) (f : Flags) (v : Byte) : Byte × Flags := (v ||| a, { f with z := decide (a &&& v = 0) })

/-- TRB with accumulator `a` (43_rmw R381). -/
def trb (a : Byte) (f : Flags) (v : Byte) : Byte × Flags :=
  (v &&& (a ^^^ 0xFF), { f with z := decide (a &&& v = 0) })

/-- `1 << n`. -/
def bitMask (n : Nat) : Byte := (1 : Byte) <<< n

/-- RMBn (43_rmw R382). -/
def rmb (n : Nat) (f : Flags) (v : Byte) : Byte × Flags := (v &&& (bitMask n ^^^ 0xFF), f)

/-- SMBn (43_rmw R383). -/
def smb (n : Nat) (f : Flags) (v : Byte) : Byte × Flags := (v ||| bitMask n, f)

end Sys2Proof.Machine
end

