-- ==== Sys2Proof/Machine/Timers.lean ====
section
/-! DEFINITION. The twelve timer units and the borrow cascade (51_timers R520 to R535). -/

namespace Sys2Proof.Machine

/-- The successor of a unit (51_timers R520). -/
def succTimer : Fin 12 → Option (Fin 12)
  | 0 => some 2
  | 1 => some 3
  | 2 => some 4
  | 3 => some 5
  | 4 => none
  | 5 => some 7
  | 6 => none
  | 7 => some 8
  | 8 => some 9
  | 9 => some 10
  | 10 => some 11
  | 11 => some 1

/-- `P(d)` ticks (51_timers R521). -/
def clockPeriod (d : BitVec 3) : Nat := 16 * 2 ^ d.toNat

/-- `linking` (51_timers R521). -/
def TimerUnit.linking (u : TimerUnit) : Bool := u.clockDivider == 7

/-- `gated` (51_timers R522). -/
def TimerUnit.gated (p : Params) (u : TimerUnit) : Bool := p.timerDoneGates && u.done && !u.reloadEnabled

/-- Self-clocked (51_timers R522). -/
def TimerUnit.selfClocked (p : Params) (u : TimerUnit) : Bool :=
  u.countEnabled && !u.linking && !u.gated p

/-- The tick of the fire a reschedule at `t` plans (51_timers R523). -/
def TimerUnit.fireTick (u : TimerUnit) (t : Tick) : Tick :=
  t + BitVec.ofNat 64 ((u.count.toNat + 1) * clockPeriod u.clockDivider)

/-- `resched(n, t)`'s effect on the unit (51_timers R523). -/
def TimerUnit.resched (u : TimerUnit) (t : Tick) : TimerUnit :=
  { u with baseTick := t, expectedFireTick := u.fireTick t }

/-- `curCount(n, t)` (51_timers R524). -/
def TimerUnit.curCount (p : Params) (u : TimerUnit) (t : Tick) : Byte :=
  if u.selfClocked p then
    if t < u.expectedFireTick then
      BitVec.ofNat 8 ((u.expectedFireTick.toNat - t.toNat - 1) / clockPeriod u.clockDivider)
    else 0
  else u.count

/-- The unit after a change that leaves it self-clocked or not: rescheduled, or with no fire planned
(51_timers R525 step 3, R532 step 6). -/
def TimerUnit.settle (p : Params) (t : Tick) (u : TimerUnit) : TimerUnit :=
  if u.selfClocked p then u.resched t else { u with expectedFireTick := 0 }

/-- `update(n, t, w)` on a unit (51_timers R525). -/
def TimerUnit.update (p : Params) (t : Tick) (w : TimerUnit → TimerUnit) (u : TimerUnit) : TimerUnit :=
  (w { u with count := u.curCount p t }).settle p t

/-- The event `settle` yields for unit `n` (51_timers R523). -/
def TimerUnit.event (p : Params) (n : Fin 12) (u : TimerUnit) : List Event :=
  if u.selfClocked p then [⟨.timer n.val, u.expectedFireTick⟩] else []

/-- `T[n]`. -/
def State.timer (s : State) (n : Fin 12) : TimerUnit := s.timers.get n

/-- `T[n] <- u`. -/
def State.setTimer (n : Fin 12) (u : TimerUnit) (s : State) : State := { s with timers := s.timers.set n u }

/-- Settles `T[n]` as `u` at tick `t`, with the event it yields. -/
def settleTimer (n : Fin 12) (t : Tick) (u : TimerUnit) (s : State) : Yield :=
  let u := u.settle s.params t
  (s.setTimer n u, u.event s.params n)

/-- `update(n, t, w)` (51_timers R525). -/
def updateTimer (n : Fin 12) (t : Tick) (w : TimerUnit → TimerUnit) (s : State) : Yield :=
  let u := (s.timer n).update s.params t w
  (s.setTimer n u, u.event s.params n)

/-! ### Register operations -/

/-- The control bits a CTLA or CONTROL write sets in common: reset done, reload, count, clock select
(51_timers R527, 52_audio R578). -/
def TimerUnit.withControl (v : Byte) (u : TimerUnit) : TimerUnit :=
  { u with
    done := u.done && !v.getLsbD 6
    reloadEnabled := v.getLsbD 4
    countEnabled := v.getLsbD 3
    clockDivider := v.extractLsb' 0 3 }

/-- `setBackup(n, v)` (51_timers R526). -/
def setBackup (n : Fin 12) (v : Byte) (s : State) : State :=
  s.setTimer n { s.timer n with backup := v }

/-- `setControlA(n, v)` (51_timers R527). -/
def setControlA (n : Fin 12) (t : Tick) (v : Byte) (s : State) : Yield :=
  updateTimer n t (fun u => { u.withControl v with interruptEnabled := v.getLsbD 7 }) s

/-- `getControlA(n)` (51_timers R528). -/
def TimerUnit.controlA (u : TimerUnit) : Byte :=
  BitVec.ofBool u.interruptEnabled ++ 0#2 ++ BitVec.ofBool u.reloadEnabled ++
    BitVec.ofBool u.countEnabled ++ u.clockDivider

/-- The timer's part of an audio CONTROL write (52_audio R578). -/
def setAudioControl (n : Fin 12) (t : Tick) (v : Byte) (s : State) : Yield :=
  updateTimer n t (fun u => u.withControl v) s

/-- `setCount(n, v)` (51_timers R529). -/
def setCount (n : Fin 12) (t : Tick) (v : Byte) (s : State) : Yield :=
  updateTimer n t (fun u => { u with count := v }) s

/-- `if v[3] == 0 then done <- 0` (51_timers R530). -/
def TimerUnit.withControlB (v : Byte) (u : TimerUnit) : TimerUnit := { u with done := u.done && v.getLsbD 3 }

/-- `setControlB(n, v)` (51_timers R530). -/
def setControlB (n : Fin 12) (t : Tick) (v : Byte) (s : State) : Yield :=
  let u := s.timer n
  if (u.withControlB v).selfClocked s.params = u.selfClocked s.params then
    (s.setTimer n (u.withControlB v), [])
  else updateTimer n t (fun u => u.withControlB v) s

/-- `getControlB(n)` at tick `t` (51_timers R530). -/
def TimerUnit.controlB (u : TimerUnit) (n : Fin 12) (t : Tick) : Byte :=
  0#4 ++ BitVec.ofBool u.done ++ Config.ctlbLow n.val t

/-! ### Firing -/

/-- Steps 1 and 2 of a fire: the done bit, and the latch bit (51_timers R532). -/
def fireMark (n : Fin 12) (s : State) : State :=
  let u := s.timer n
  let s := s.setTimer n { u with done := true }
  if n.val < 8 ∧ u.interruptEnabled = true then { s with irqLatch := s.irqLatch ||| bitMask n.val } else s

/-- Step 3 of a fire: the unit's own action (51_timers R532). -/
def fireOwn (n : Fin 12) (t : Tick) (s : State) : Yield :=
  match n with
  | 0 => hblank t s
  | 2 => (vblank s, [])
  | 8 => (audioTrigger 0 s, [])
  | 9 => (audioTrigger 1 s, [])
  | 10 => (audioTrigger 2 s, [])
  | 11 => (audioTrigger 3 s, [])
  | _ => (s, [])

/-- Steps 5 and 6 of a fire: the reload and the next fire (51_timers R532). -/
def fireReload (n : Fin 12) (t : Tick) (s : State) : Yield :=
  let u := s.timer n
  settleTimer n t { u with count := if u.reloadEnabled then u.backup else 0 } s

/-- The borrow is accepted (51_timers R533, R534). -/
def borrowAccepted (firing : List (Fin 12)) (m : Fin 12) (s : State) : Bool :=
  let u := s.timer m
  u.linking && u.countEnabled && !u.gated s.params && !firing.contains m

/-- `fire(n, t)` (51_timers R532) with the units `firing` in the cascade already, and in step 4
`borrowIn` (R533). A unit fires at most once in a cascade, so `fuel` 12 is never used up (R534). -/
def fire : Nat → List (Fin 12) → Fin 12 → Tick → State → Yield
  | 0, _, _, _, s => (s, [])
  | fuel + 1, firing, n, t, s =>
    let y := fireOwn n t (fireMark n s)
    let z : Yield :=
      match succTimer n with
      | none => (y.1, [])
      | some m =>
        if borrowAccepted (n :: firing) m y.1 then
          if (y.1.timer m).count = 0 then fire fuel (n :: firing) m t y.1
          else (y.1.setTimer m { y.1.timer m with count := (y.1.timer m).count - 1 }, [])
        else (y.1, [])
    let w := fireReload n t z.1
    (w.1, y.2 ++ z.2 ++ w.2)

/-- `fireAction(n, t)` (51_timers R531): a stale event does nothing. -/
def fireAction (n : Fin 12) (t : Tick) (s : State) : Yield :=
  if t ≠ (s.timer n).expectedFireTick ∨ (s.timer n).expectedFireTick = 0 then (s, [])
  else fire 12 [] n t s

end Sys2Proof.Machine
end

