-- ==== Sys2Proof/Machine/Chip.lean ====
section
/-! DEFINITION. The ControllerChip: its register decode (54_controller_chip R630), the effect of every
register's read and write, the interrupt latch and the serial and parallel glue. -/

namespace Sys2Proof.Machine

/-- A register of the ControllerChip (54_controller_chip R630); `refused` stands for the registers of
R668 and `unused` for every other address (R669). -/
inductive ChipReg where
  | timBkup (n : Fin 8)
  | timCtlA (n : Fin 8)
  | timCnt (n : Fin 8)
  | timCtlB (n : Fin 8)
  | audVol (n : Fin 4)
  | audFeedback (n : Fin 4)
  | audOutput (n : Fin 4)
  | audShift (n : Fin 4)
  | audBackup (n : Fin 4)
  | audControl (n : Fin 4)
  | audCounter (n : Fin 4)
  | audOther (n : Fin 4)
  | atten (n : Fin 4)
  | mpan
  | mstereo
  | intrst
  | intset
  | iodir
  | iodat
  | serctl
  | serdat
  | cpusleep
  | dispctl
  | dispadrL
  | dispadrH
  | green (n : Fin 16)
  | bluered (n : Fin 16)
  | refused
  | unused
  deriving DecidableEq, Repr

/-- The timer registers, `0xFD00 + 4n + k` (54_controller_chip R630). -/
def timerReg (o : Nat) : ChipReg :=
  let n := Fin.ofNat 8 (o / 4)
  match o % 4 with
  | 0 => .timBkup n
  | 1 => .timCtlA n
  | 2 => .timCnt n
  | _ => .timCtlB n

/-- The audio registers, `0xFD20 + 8n + k` (52_audio R571), from the offset `8n + k`. -/
def audioReg (o : Nat) : ChipReg :=
  let n := Fin.ofNat 4 (o / 8)
  match o % 8 with
  | 0 => .audVol n
  | 1 => .audFeedback n
  | 2 => .audOutput n
  | 3 => .audShift n
  | 4 => .audBackup n
  | 5 => .audControl n
  | 6 => .audCounter n
  | _ => .audOther n

/-- The registers 0xFD80 to 0xFD9F (54_controller_chip R630), from the offset within the page. -/
def systemReg (o : Nat) : ChipReg :=
  match o with
  | 0x80 => .intrst
  | 0x81 => .intset
  | 0x84 | 0x85 | 0x86 | 0x87 | 0x88 | 0x89 => .refused
  | 0x8A => .iodir
  | 0x8B => .iodat
  | 0x8C => .serctl
  | 0x8D => .serdat
  | 0x90 => .refused
  | 0x91 => .cpusleep
  | 0x92 => .dispctl
  | 0x93 => .refused
  | 0x94 => .dispadrL
  | 0x95 => .dispadrH
  | 0x9C | 0x9D | 0x9E => .refused
  | _ => .unused

/-- The register at an address of page 0xFD (54_controller_chip R630). -/
def chipReg (a : Addr) : ChipReg :=
  let o := a.toNat % 256
  if o < 0x20 then timerReg o
  else if o < 0x40 then audioReg (o - 0x20)
  else if o < 0x44 then .atten (Fin.ofNat 4 (o - 0x40))
  else if o = 0x44 then .mpan
  else if o = 0x50 then .mstereo
  else if o < 0x80 then .unused
  else if o < 0xA0 then systemReg o
  else if o < 0xB0 then .green (Fin.ofNat 16 (o - 0xA0))
  else if o < 0xC0 then .bluered (Fin.ofNat 16 (o - 0xB0))
  else .unused

/-- The unit of timer group `n` (54_controller_chip R630). -/
def timerUnit (n : Fin 8) : Fin 12 := ⟨n.val, by omega⟩

/-- The unit that clocks audio channel `n` (52_audio R570). -/
def audioUnit (n : Fin 4) : Fin 12 := ⟨8 + n.val, by omega⟩

/-! ### The interrupt latch (54_controller_chip R650 to R654, R662) -/

/-- `irqLine`, which is `pend.IRQ` at every instant (54_controller_chip R650, 10_state R37). -/
def State.irqLine (s : State) : Bool := decide (s.irqLatch ≠ 0)

/-- `TXRDY`, and `TXEMPTY` (54_controller_chip R660). -/
def Serial.txRdy (r : Serial) : Bool := !r.txBusy

/-- `serialIrqActive` (54_controller_chip R662). -/
def Serial.irqActive (r : Serial) : Bool :=
  (r.ctl.getLsbD 7 && r.txRdy) || (r.ctl.getLsbD 6 && r.rxReady)

/-- Holds latch bit 4 at 1 while the serial condition is active (54_controller_chip R654). -/
def applySerialIrq (s : State) : State :=
  if s.serial.irqActive then { s with irqLatch := s.irqLatch ||| 0x10 } else s

/-- INTRST write (54_controller_chip R651). -/
def intrstWrite (v : Byte) (s : State) : State :=
  applySerialIrq { s with irqLatch := s.irqLatch &&& (v ^^^ 0xFF) }

/-- INTSET write (54_controller_chip R652). -/
def intsetWrite (v : Byte) (s : State) : State := { s with irqLatch := s.irqLatch ||| v }

/-! ### Serial and parallel glue -/

/-- SERCTL write (54_controller_chip R660, R654). -/
def serctlWrite (v : Byte) (s : State) : State :=
  applySerialIrq { s with serial := { s.serial with ctl := v } }

/-- The status byte a SERCTL read returns (54_controller_chip R660). -/
def Serial.status (r : Serial) : Byte :=
  BitVec.ofBool r.txRdy ++ BitVec.ofBool r.rxReady ++ BitVec.ofBool r.txRdy ++ 0#5

/-- SERDAT write (54_controller_chip R661). -/
def serdatWrite (v : Byte) (s : State) : State := { s with serialOut := s.serialOut ++ [v] }

/-- SERDAT read's side effect (54_controller_chip R661). -/
def serdatTaken (s : State) : State := { s with serial := { s.serial with rxReady := false } }

/-- IODAT read (54_controller_chip R664). -/
def State.iodat (s : State) : Byte := (s.ioDat &&& s.ioDir) ||| (s.ioIn &&& (s.ioDir ^^^ 0xFF))

/-- The output pins the host sees (54_controller_chip R664). -/
def State.ioOut (s : State) : Byte := s.ioDat &&& s.ioDir

/-- CPUSLEEP write (60_exceptions R772). -/
def cpusleepWrite (s : State) : State := { s with cpu := { s.cpu with mode := .sleeping } }

/-! ### Register reads and writes -/

/-- The byte a read of a register at tick `t` returns (54_controller_chip R630). -/
def chipValue (t : Tick) (a : Addr) (s : State) : Byte :=
  match chipReg a with
  | .timBkup n => (s.timer (timerUnit n)).backup
  | .timCtlA n => (s.timer (timerUnit n)).controlA
  | .timCnt n => (s.timer (timerUnit n)).curCount s.params t
  | .timCtlB n => (s.timer (timerUnit n)).controlB (timerUnit n) t
  | .audVol n => (s.audio.get n).volume
  | .audFeedback n => (s.audio.get n).feedback
  | .audOutput n => (s.audio.get n).lastOutput
  | .audShift n => (s.audio.get n).shift.extractLsb' 0 8
  | .audBackup n => (s.timer (audioUnit n)).backup
  | .audControl n => audControlValue (s.audio.get n) (s.timer (audioUnit n))
  | .audCounter n => (s.timer (audioUnit n)).curCount s.params t
  | .audOther n => audOtherValue n t (s.audio.get n) (s.timer (audioUnit n))
  | .atten n => s.atten.get n
  | .mpan => s.mpan
  | .mstereo => s.mstereo
  | .intrst => s.irqLatch
  | .intset => s.irqLatch
  | .iodir => s.ioDir
  | .iodat => s.iodat
  | .serctl => s.serial.status
  | .serdat => s.serial.rxData
  | .green n => s.green.get n
  | .bluered n => s.bluered.get n
  | .cpusleep => Config.noise a
  | .dispctl => Config.noise a
  | .dispadrL => Config.noise a
  | .dispadrH => Config.noise a
  | .refused => Config.noise a
  | .unused => Config.noise a
where
  /-- CONTROL read (52_audio R578). -/
  audControlValue (ch : AudioChannel) (u : TimerUnit) : Byte :=
    ch.tapMask.extractLsb' 7 1 ++ 0#1 ++ BitVec.ofBool ch.integrateEnabled ++
      BitVec.ofBool u.reloadEnabled ++ BitVec.ofBool u.countEnabled ++ u.clockDivider
  /-- OTHER read (52_audio R580). -/
  audOtherValue (n : Fin 4) (t : Tick) (ch : AudioChannel) (u : TimerUnit) : Byte :=
    ch.shift.extractLsb' 8 4 ++ BitVec.ofBool u.done ++ Config.ctlbLow (audioUnit n).val t

/-- The state after a read of a register: only a SERDAT read changes it (54_controller_chip R631). -/
def chipReadEffect (a : Addr) (s : State) : State :=
  match chipReg a with
  | .serdat => serdatTaken s
  | _ => s

/-- CONTROL write (52_audio R578). -/
def audControlWrite (n : Fin 4) (t : Tick) (v : Byte) (s : State) : Yield :=
  setAudioControl (audioUnit n) t v (s.updateAudio n (·.setControl v))

/-- OTHER write (52_audio R580). -/
def audOtherWrite (n : Fin 4) (t : Tick) (v : Byte) (s : State) : Yield :=
  setControlB (audioUnit n) t v (s.updateAudio n (·.setShiftHigh v))

/-- The effect of a write of `v` to a register at tick `t` (54_controller_chip R630). -/
def chipWrite (t : Tick) (a : Addr) (v : Byte) (s : State) : Yield :=
  match chipReg a with
  | .timBkup n => (setBackup (timerUnit n) v s, [])
  | .timCtlA n => setControlA (timerUnit n) t v s
  | .timCnt n => setCount (timerUnit n) t v s
  | .timCtlB n => setControlB (timerUnit n) t v s
  | .audVol n => (s.updateAudio n fun ch => { ch with volume := v }, [])
  | .audFeedback n => (s.updateAudio n (·.setFeedback v), [])
  | .audOutput n => (s.updateAudio n fun ch => { ch with lastOutput := v }, [])
  | .audShift n => (s.updateAudio n (·.setShiftLow v), [])
  | .audBackup n => (setBackup (audioUnit n) v s, [])
  | .audControl n => audControlWrite n t v s
  | .audCounter n => setCount (audioUnit n) t v s
  | .audOther n => audOtherWrite n t v s
  | .atten n => ({ s with atten := s.atten.set n v }, [])
  | .mpan => ({ s with mpan := v }, [])
  | .mstereo => ({ s with mstereo := v }, [])
  | .intrst => (intrstWrite v s, [])
  | .intset => (intsetWrite v s, [])
  | .iodir => ({ s with ioDir := v }, [])
  | .iodat => ({ s with ioDat := v }, [])
  | .serctl => (serctlWrite v s, [])
  | .serdat => (serdatWrite v s, [])
  | .cpusleep => (cpusleepWrite s, [])
  | .dispctl => ({ s with display := { s.display with dispctl := v } }, [])
  | .dispadrL =>
    ({ s with display := { s.display with dispadr := word (hiByte s.display.dispadr) v } }, [])
  | .dispadrH =>
    ({ s with display := { s.display with dispadr := word v (loByte s.display.dispadr) } }, [])
  | .green n => (updatePalette t n.val v { s with green := s.green.set n v }, [])
  | .bluered n => (updatePalette t (16 + n.val) v { s with bluered := s.bluered.set n v }, [])
  | .refused => (s, [])
  | .unused => (s, [])

end Sys2Proof.Machine
end

