-- ==== Sys2Proof/Machine/Bus.lean ====
section
/-! DEFINITION. The bus: routing (20_memory R101 to R108), the traps (55_system R708) and the resolution
of a CPU request (55_system R703). -/

namespace Sys2Proof.Machine

/-- What a bus access reaches (20_memory R101). -/
inductive Target where
  | ram
  | rom
  | chip
  | sprite
  | mapctl
  deriving DecidableEq, Repr

/-- `pageType` (20_memory R102). -/
def pageType (mapctl page : Byte) : Target :=
  if page = 0xFC then (if mapctl.getLsbD 0 then .ram else .sprite)
  else if page = 0xFD then (if mapctl.getLsbD 1 then .ram else .chip)
  else if page = 0xFE ∨ page = 0xFF then (if mapctl.getLsbD 2 then .ram else .rom)
  else .ram

/-- The routing of an address, first match wins (20_memory R101). -/
def route (mapctl : Byte) (a : Addr) : Target :=
  if a = 0xFFF9 then .mapctl
  else if a = 0xFFF8 then .ram
  else if 0xFFFA ≤ a then (if mapctl.getLsbD 3 then .ram else .rom)
  else pageType mapctl (hiByte a)

/-- A write routed to RAM (20_memory R106). -/
def State.writeRam (a : Addr) (v : Byte) (s : State) : State := { s with ram := ramWrite s.ram a v }

/-- The write of `v` at `a` on its target at tick `t` (20_memory R105 to R108, 54_controller_chip R666). -/
def busWrite (target : Target) (t : Tick) (a : Addr) (v : Byte) (s : State) : Yield :=
  match target with
  | .ram => (s.writeRam a v, [])
  | .rom =>
    (match s.params.romWritePolicy with
      | .discard => s
      | .writeRam => s.writeRam a v, [])
  | .chip => chipWrite t a v s
  | .sprite => ({ s with suzy := Config.spriteWrite t s.suzy a v }, [])
  | .mapctl => ({ s with mapctl := v }, [])

/-- The byte a read at `a` on its target returns at tick `t` (20_memory R104, R106 to R108). -/
def busValue (target : Target) (t : Tick) (a : Addr) (s : State) : Byte :=
  match target with
  | .ram => ramRead s.ram a
  | .rom => romRead s.rom a
  | .chip => chipValue t a s
  | .sprite => Config.spriteRead t s.suzy a
  | .mapctl => s.mapctl

/-- The state after that read (54_controller_chip R631). -/
def busReadEffect (target : Target) (a : Addr) (s : State) : State :=
  match target with
  | .chip => chipReadEffect a s
  | _ => s

/-! ### Traps (55_system R708) -/

/-- The trap is registered on the kind. -/
def Trap.onKind (x : Trap) : BusKind → Bool
  | .fetchOpcode => x.onFetch
  | .fetchOperand => x.onFetch
  | .read => x.onRead
  | .write => x.onWrite
  | .discard => x.onDiscard

/-- Passes a value through the traps of an access in registration order: the last value, and whether
any asked for a break (55_system R708). -/
def applyTraps (k : BusKind) (t : Tick) (a : Addr) : List Trap → Byte → Byte × Bool
  | [], v => (v, false)
  | x :: xs, v =>
    if x.onKind k && x.addrs.contains a then
      let r := Config.trapFn x.fn t a v
      let r' := applyTraps k t a xs r.1
      (r'.1, r.2 || r'.2)
    else applyTraps k t a xs v

/-- `breakFromTrap <- true` if a trap asked for a break (55_system R708). -/
def State.trapBreak (b : Bool) (s : State) : State :=
  { s with cpu := { s.cpu with brk := { s.cpu.brk with fromTrap := s.cpu.brk.fromTrap || b } } }

/-! ### Resolution (55_system R703) -/

/-- The completion tick of an access (55_system R703 step 4, 54_controller_chip R633, R666). -/
def completion (target : Target) (k : BusKind) (a : Addr) (prev : Option (BusKind × Addr)) (t : Tick) : Tick :=
  match target with
  | .ram => advanceTick t (1 + Config.ramLatencyExtra k a prev)
  | .rom => advanceTick t (1 + Config.romLatencyExtra k a)
  | .chip => advanceTick t (1 + Config.mikeyLatencyExtra t a)
  | .mapctl => advanceTick t (1 + Config.mikeyLatencyExtra t a)
  | .sprite => advanceTick t (1 + Config.suzyLatencyExtra t a)

/-- The access reaches a refused register (54_controller_chip R668). -/
def refusedAccess (mapctl : Byte) (a : Addr) : Bool :=
  route mapctl a == .chip && chipReg a == .refused

/-- Steps 2 and 3: the access at tick `now`, the byte it moved, and the events it yielded. -/
def access (req : BusReq) (s : State) : Byte × Yield :=
  let t := s.now
  let target := route s.mapctl req.addr
  match req with
  | .write a v =>
    let r := applyTraps .write t a s.traps v
    (r.1, busWrite target t a r.1 (s.trapBreak r.2))
  | _ =>
    let r := applyTraps req.kind t req.addr s.traps (busValue target t req.addr s)
    (r.1, ((busReadEffect target req.addr s).trapBreak r.2, []))

/-- Step 5: the tick, the events, and the record of the cycle. -/
def State.recordAccess (req : BusReq) (v : Byte) (c : Tick) (s : State) : State :=
  { s with
    now := c
    prevBus := some (req.kind, req.addr)
    busLog := s.busLog ++ [⟨req.kind, req.addr, v⟩] }

/-- Steps 2 to 5 of the resolution of a CPU request (55_system R703): the byte for `respond`, and the state. -/
def resolve (req : BusReq) (s : State) : Byte × State :=
  let c := completion (route s.mapctl req.addr) req.kind req.addr s.prevBus s.now
  let r := access req s
  (r.1, (Yield.commit r.2).recordAccess req r.1 c)

/-! ### One bus cycle, and a burst of them -/

/-- `run` exits with AUDIO_FULL after a loop step that left the buffer full (55_system R717). -/
def State.settle (s : State) : State :=
  if s.runExit = none ∧ s.sampling.active = true ∧ s.sampling.idx = s.sampling.buf.length then
    { s with runExit := some .audioFull }
  else s

/-- A request at a refused register ends the run and stays outstanding (55_system R703 step 1). -/
def State.refuse (a : Addr) (s : State) : State := { s with runExit := some (.refused a) }

/-- The CPU step of the loop inside a sequence: `advance`, resolution, `respond` (55_system R702). -/
def oneCycle (q : Seq) (s : State) : Res State :=
  (s.cpu.advance q s.params).bind fun r =>
    let s := { s with cpu := r.2 }
    if refusedAccess s.mapctl r.1.addr then .next (s.refuse r.1.addr)
    else
      let x := resolve r.1 s
      (x.2.cpu.respond q x.2.params x.1).bind fun c => .next { x.2 with cpu := c }.settle

/-- The next loop step is the CPU's: the run goes on, no event is due and the sprite device is idle
(55_system R700). -/
def State.cpuTurn (s : State) : Bool := s.runExit.isNone && !s.eventDue && !s.suzy.busy

/-- Further bus cycles of a sequence, while it has not ended and the loop gives the CPU its turn; a
sequence has at most eight (log 1). -/
def burst (q : Seq) : Nat → State → Res State
  | 0, s => .next s
  | n + 1, s =>
    if s.cpu.cycle = 0 then .next s
    else if s.cpuTurn then (oneCycle q s).bind (burst q n)
    else .next s

/-- Runs a sequence: one bus cycle, then as many more as the loop gives it without another agent's
turn (log 1). -/
def runSeq (q : Seq) (s : State) : Res State := (oneCycle q s).bind (burst q 8)

end Sys2Proof.Machine
end

