-- ==== Sys2Proof/Machine/Boundary.lean ====
section
/-! DEFINITION. The instruction boundary (40_dispatch R202): break control (60_exceptions R780 to R786), the
wake check (R772), the choice of the sequence that starts (R754), and the opcode fetch (40_dispatch R203). -/

namespace Sys2Proof.Machine

/-! ### Break control -/

/-- `lastSeq` is RTS or RTI (60_exceptions R783, R784). -/
def Cpu.lastReturn (c : Cpu) : Bool := c.opcode == .instr 0x60 || c.opcode == .instr 0x40

/-- `lastSeq` is a BRK that ran its full sequence: its signature, still in `data`, was not the ignored
one (60_exceptions R783). -/
def Cpu.lastBreak (p : Params) (c : Cpu) : Bool :=
  c.opcode == .instr 0x00 && p.brkSoftIgnoreSig != some c.data

/-- `lastSeq` entered a subroutine or a handler (60_exceptions R783). -/
def Cpu.lastEntry (p : Params) (c : Cpu) : Bool :=
  c.opcode == .instr 0x20 || c.opcode == .irq || c.opcode == .nmi || c.lastBreak p

/-- The condition of `breakFromTrap` (60_exceptions R785). -/
def Cpu.condTrap (c : Cpu) : Bool := c.brk.fromTrap

/-- The condition of `breakNext` (60_exceptions R781). -/
def Cpu.condNext (c : Cpu) : Bool := c.brk.evalPending && c.brk.next

/-- The condition of `breakOnStepIn` (60_exceptions R782). -/
def Cpu.condStepIn (c : Cpu) : Bool := c.brk.evalPending && c.brk.stepIn

/-- The condition of `breakOnStepOver` (60_exceptions R783). -/
def Cpu.condStepOver (p : Params) (c : Cpu) : Bool :=
  c.brk.evalPending && c.brk.stepOver &&
    (if c.brk.stepDeep then c.lastReturn && decide (c.brk.stepSP ≤ c.sp) else !c.lastEntry p)

/-- The condition of `breakOnStepOut` (60_exceptions R784). -/
def Cpu.condStepOut (c : Cpu) : Bool :=
  c.brk.evalPending && c.brk.stepOut && c.lastReturn && decide (c.brk.stepSP < c.sp)

/-- The reason reported when several conditions hold (60_exceptions R786). -/
def Cpu.breakFound (p : Params) (c : Cpu) : Option BreakReason :=
  if c.condTrap then some .trap
  else if c.condNext then some .next
  else if c.condStepIn then some .stepIn
  else if c.condStepOver p then some .stepOver
  else if c.condStepOut then some .stepOut
  else none

/-- The flags after an evaluation: `evalPending` is consumed, a flag whose condition held is cleared, and
a step-over that has just entered a subroutine or handler is deep (60_exceptions R780, R783). -/
def Cpu.breakEvaluated (p : Params) (c : Cpu) : BreakState :=
  { c.brk with
    fromTrap := c.brk.fromTrap && !c.condTrap
    next := c.brk.next && !c.condNext
    stepIn := c.brk.stepIn && !c.condStepIn
    stepOver := c.brk.stepOver && !c.condStepOver p
    stepOut := c.brk.stepOut && !c.condStepOut
    stepDeep := c.brk.stepDeep || (c.brk.evalPending && c.brk.stepOver && c.lastEntry p)
    evalPending := false
    reason := (c.breakFound p).getD c.brk.reason }

/-- Break evaluation at a boundary (60_exceptions R780): the CPU, and the reason if a break fires. -/
def Cpu.evalBreaks (p : Params) (c : Cpu) : Cpu × Option BreakReason :=
  ({ c with brk := c.breakEvaluated p }, c.breakFound p)

/-! ### Wake, interrupts, fetch -/

/-- The wake check makes the CPU Running (60_exceptions R772). -/
def Cpu.wakes (irq : Bool) (c : Cpu) : Bool :=
  match c.mode with
  | .running => true
  | .sleeping => irq || c.pendNmi || c.pendReset
  | .waiting => irq || c.pendNmi || c.pendReset
  | .stopped => c.pendReset

/-- The CPU after the wake check (60_exceptions R772). -/
def Cpu.wakeCheck (irq : Bool) (c : Cpu) : Cpu := if c.wakes irq then { c with mode := .running } else c

/-- The sequence that starts at the boundary, `none` for an opcode fetch: RESET, then NMI, then IRQ with
`I = 0` (60_exceptions R754, 40_dispatch R202 step 3). -/
def Cpu.interruptChoice (irq : Bool) (c : Cpu) : Option SeqKind :=
  if c.pendReset then some .reset
  else if c.pendNmi then some .nmi
  else if irq && !c.flags.i then some .irq
  else none

/-- The bus sequence of an interrupt kind (60_exceptions R751, R752). -/
def interruptSeqOf : SeqKind → Seq
  | .reset => resetSeq
  | .nmi => interruptSeq nmiVector
  | _ => interruptSeq irqVector

/-- Starts an interrupt sequence: its kind is fixed, and its pending bit is cleared (60_exceptions R751,
R752). -/
def Cpu.startInterrupt (k : SeqKind) (c : Cpu) : Cpu :=
  match k with
  | .reset => { c with opcode := .reset, pendReset := false, mode := .running }
  | .nmi => { c with opcode := .nmi, pendNmi := false }
  | k => { c with opcode := k }

/-- The answer to a FETCH_OPCODE (40_dispatch R203), with the hiccup record of an undefined opcode
(45_stack_flags_misc R446). -/
def Cpu.answerOpcode (p : Params) (v : Byte) (c : Cpu) : Cpu :=
  { c with
    opcode := .instr v
    pc := c.pc + 1
    cycle := 1
    trace := if (decodeOpcode p v).undefinedNop then c.trace ++ [⟨c.pc, v⟩] else c.trace }

/-- The opcode fetch (40_dispatch R202 step 4, R203). -/
def fetchSeq : Seq := fun p c => ⟨.fetchOpcode c.pc, fun v c => c.answerOpcode p v⟩

/-- Idle (55_system R704): on to the next event, or STALLED when there is none. -/
def idle (s : State) : State :=
  match peekEarliestTick s.queue with
  | some e => { s with now := if s.now ≤ e then e else s.now }
  | none => { s with runExit := some .stalled }

/-- What `advance` does at a boundary (40_dispatch R202). -/
inductive AtBoundary where
  /-- A break fires: no request. -/
  | brk (reason : BreakReason)
  /-- The CPU is not Running: no request. -/
  | asleep
  /-- An interrupt sequence starts. -/
  | interrupt (k : SeqKind)
  /-- `FETCH_OPCODE(PC)`. -/
  | fetch
  deriving DecidableEq, Repr

/-- Steps 1 to 4 of `advance` at a boundary (40_dispatch R202): what happens, and the CPU. -/
def Cpu.boundary (p : Params) (irq : Bool) (c : Cpu) : AtBoundary × Cpu :=
  match c.evalBreaks p with
  | (c, some r) => (.brk r, c)
  | (c, none) =>
    let c := c.wakeCheck irq
    if c.mode = .running then
      match c.interruptChoice irq with
      | some k => (.interrupt k, c.startInterrupt k)
      | none => (.fetch, c)
    else (.asleep, c)

end Sys2Proof.Machine
end

