-- ==== Sys2Proof/Machine/Operands.lean ====
section
/-! DEFINITION. Every operand form: the effective addresses of 30_encoding R160 to R173, and the bus cycles
that form them, R211 to R228 of 40_dispatch. -/

namespace Sys2Proof.Machine

/-! ### Effective addresses -/

/-- Zero page (30_encoding R161). -/
def zpAddr (b1 : Byte) : Addr := zext16 b1

/-- Zero page,X and zero page,Y: the sum wraps inside page 0 (30_encoding R162, R163). -/
def zpIndexed (b1 idx : Byte) : Addr := zext16 (b1 + idx)

/-- `(p + 1) mod 256`, the address of a zero-page pointer's high byte (30_encoding R167). -/
def zpNext (p : Addr) : Addr := zext16 (loByte p + 1)

/-- A base plus an index (30_encoding R165, R166, R168, R172). -/
def indexed (base : Addr) (idx : Byte) : Addr := base + zext16 idx

/-- The sum left the base's page (30_encoding R165, R166, R168, R170). -/
def pageCrossed (base ea : Addr) : Bool := decide (hiByte ea ≠ hiByte base)

/-- The target of a relative branch (30_encoding R170, R173). -/
def branchTarget (pcNext : Addr) (off : Byte) : Addr := pcNext + sext16 off

/-- The index register of a mode (30_encoding R162 to R172). -/
def modeIndex (m : Mode) (c : Cpu) : Byte :=
  match m with
  | .zpX | .absX | .indX | .absIndX => c.x
  | .zpY | .absY | .indY => c.y
  | _ => 0

/-- Latches the target of a taken branch, PC being the next instruction (30_encoding R170, R173). -/
def Cpu.latchBranch (off : Byte) (c : Cpu) : Cpu :=
  { c with ea := branchTarget c.pc off, crossed := pageCrossed c.pc (branchTarget c.pc off) }

/-! ### The cycles that form an effective address -/

/-- The index of the first cycle after the address is formed; `always` says that the indexed modes take
their dummy cycle crossed or not (40_dispatch R212 to R228). -/
def addrEnd (m : Mode) (always : Bool) (c : Cpu) : Nat :=
  match m with
  | .zp => 2
  | .zpX | .zpY | .abs => 3
  | .absX | .absY => if always || c.crossed then 4 else 3
  | .indX => 5
  | .indY => if always || c.crossed then 5 else 4
  | .ind => 4
  | _ => 1

/-- Latches the effective address of an indexed mode, and whether the index crossed a page. -/
def Cpu.latchIndexed (base : Addr) (idx : Byte) (c : Cpu) : Cpu :=
  { c with ea := indexed base idx, crossed := pageCrossed base (indexed base idx) }

/-- The first operand byte of an address, latched (40_dispatch R215 to R228). -/
def firstOperand (c : Cpu) : Cycle := operandCycle c fun b1 c => { c with data := b1 }.goto 2

/-- The low byte of a zero-page pointer (40_dispatch R225 to R228). -/
def pointerLow (k : Nat) (c : Cpu) : Cycle := readCycle c.ptr fun lo c => { c with data := lo }.goto k

/-- The cycle of index `c.cycle` of the address phase of mode `m` (40_dispatch R212 to R228). -/
def addrCycle (m : Mode) (c : Cpu) : Cycle :=
  match m with
  | .zp => operandCycle c fun b1 c => { c with ea := zpAddr b1 }.goto 2
  | .zpX | .zpY =>
    match c.cycle with
    | 0 | 1 => firstOperand c
    | _ => dummyCycle (c.pc - 1) fun c => { c with ea := zpIndexed c.data (modeIndex m c) }.goto 3
  | .abs =>
    match c.cycle with
    | 0 | 1 => firstOperand c
    | _ => operandCycle c fun b2 c => { c with ea := word b2 c.data }.goto 3
  | .absX | .absY =>
    match c.cycle with
    | 0 | 1 => firstOperand c
    | 2 => operandCycle c fun b2 c => (c.latchIndexed (word b2 c.data) (modeIndex m c)).goto 3
    | _ => dummyCycle (c.pc - 1) (Cpu.goto 4)
  | .indX =>
    match c.cycle with
    | 0 | 1 => firstOperand c
    | 2 => dummyCycle (c.pc - 1) fun c => { c with ptr := zpIndexed c.data c.x }.goto 3
    | 3 => pointerLow 4 c
    | _ => readCycle (zpNext c.ptr) fun hi c => { c with ea := word hi c.data }.goto 5
  | .indY =>
    match c.cycle with
    | 0 | 1 => operandCycle c fun b1 c => { c with ptr := zpAddr b1 }.goto 2
    | 2 => pointerLow 3 c
    | 3 => readCycle (zpNext c.ptr) fun hi c => (c.latchIndexed (word hi c.data) c.y).goto 4
    | _ => dummyCycle (zpNext c.ptr) (Cpu.goto 5)
  | _ =>
    match c.cycle with
    | 0 | 1 => operandCycle c fun b1 c => { c with ptr := zpAddr b1 }.goto 2
    | 2 => pointerLow 3 c
    | _ => readCycle (zpNext c.ptr) fun hi c => { c with ea := word hi c.data }.goto 4

end Sys2Proof.Machine
end

