-- ==== Sys2Proof/Machine/Sequences.lean ====
section
/-! DEFINITION. The shared bus sequences of the instructions (40_dispatch R210 to R245), each over the
operation of the instruction that runs it. -/

namespace Sys2Proof.Machine

/-- An instruction with the meaning `q`, refused when no opcode encodes the term. -/
def runWf (wf : Bool) (q : Seq) (s : State) : Res State :=
  if wf then runSeq q s else .refused .illFormed

/-- Implied (40_dispatch R210): the operation takes effect at the dummy cycle. -/
def impliedSeq (op : Cpu → Cpu) : Seq := fun _ c => dummyCycle c.pc fun c => (op c).finish

/-- The operation of a read-class instruction, and whether it takes the decimal extra cycle
(40_dispatch R205, R229). -/
structure ReadOp where
  exec : Byte → Cpu → Cpu
  decimal : Bool

/-- The decimal extra cycle is taken (40_dispatch R229). -/
def ReadOp.extra (r : ReadOp) (p : Params) (c : Cpu) : Bool :=
  r.decimal && p.decimalExtraCycle && c.flags.d

/-- The sequence goes on with the next cycle. -/
def Cpu.next (c : Cpu) : Cpu := { c with cycle := c.cycle + 1 }

/-- The address phase of mode `m`, then the cycles of `tail`, numbered from 0 (40_dispatch R212 to R228). -/
def afterAddr (m : Mode) (always : Bool) (tail : Nat → Params → Cpu → Cycle) : Seq := fun p c =>
  if c.cycle < addrEnd m always c then addrCycle m c
  else tail (c.cycle - addrEnd m always c) p c

/-- The operand `v` arrives: the operation, or the operand latched for the decimal extra cycle
(40_dispatch R206, R229). -/
def ReadOp.answer (r : ReadOp) (p : Params) (v : Byte) (c : Cpu) : Cpu :=
  if r.extra p c then { c with data := v }.next else (r.exec v c).finish

/-- The decimal extra cycle at `a` (40_dispatch R229). -/
def ReadOp.extraCycle (r : ReadOp) (a : Addr) : Cycle := dummyCycle a fun c => (r.exec c.data c).finish

/-- Immediate (40_dispatch R211, R229). -/
def immSeq (r : ReadOp) : Seq := fun p c =>
  match c.cycle with
  | 0 | 1 => operandCycle c fun v c => r.answer p v c
  | _ => r.extraCycle (c.pc - 1)

/-- A read from memory in mode `m` (40_dispatch R212, R215, R218, R221, R225, R226, R228, R229). -/
def memReadSeq (m : Mode) (r : ReadOp) : Seq := afterAddr m false fun j p c =>
  match j with
  | 0 => readCycle c.ea fun v c => r.answer p v c
  | _ => r.extraCycle c.ea

/-- A read-class instruction in mode `m`. -/
def readSeq (m : Mode) (r : ReadOp) : Seq :=
  match m with
  | .imm => immSeq r
  | _ => memReadSeq m r

/-- A write-class instruction (40_dispatch R213, R216, R219, R222, R225, R227, R228): the indexed modes
always take their dummy cycle. -/
def writeSeq (m : Mode) (sv : Cpu → Byte) : Seq := afterAddr m true fun _ _ c =>
  writeCycle c.ea (sv c) Cpu.finish

/-- The operation of a read-modify-write instruction (40_dispatch R205). -/
abbrev RmwOp := Cpu → Byte → Byte × Flags

/-- An operation on the accumulator (40_dispatch R210). -/
def accSeq (f : RmwOp) : Seq :=
  impliedSeq fun c => { c with a := (f c c.a).1, flags := (f c c.a).2 }

/-- A read-modify-write of memory (40_dispatch R214, R217, R220, R223, R224). -/
def memRmwSeq (m : Mode) (always : Bool) (f : RmwOp) : Seq := afterAddr m always fun j _ c =>
  match j with
  | 0 => readCycle c.ea fun v c => { c with data := (f c v).1, flags := (f c v).2 }.next
  | 1 => dummyCycle c.ea Cpu.next
  | _ => writeCycle c.ea c.data Cpu.finish

/-- A read-modify-write instruction in mode `m`; `always` is the form of INC and DEC, whose absolute,X
mode takes its dummy cycle crossed or not (40_dispatch R224). -/
def rmwSeq (m : Mode) (always : Bool) (f : RmwOp) : Seq :=
  match m with
  | .acc => accSeq f
  | _ => memRmwSeq m always f

/-- Relative branch (40_dispatch R230). -/
def branchSeq (cond : Flags → Bool) : Seq := fun _ c =>
  match c.cycle with
  | 0 | 1 => operandCycle c fun b1 c =>
      if cond c.flags then (c.latchBranch b1).goto 2 else c.finish
  | 2 => dummyCycle c.pc fun c => if c.crossed then c.goto 3 else { c with pc := c.ea }.finish
  | _ => dummyCycle c.pc fun c => { c with pc := c.ea }.finish

/-- BBRn and BBSn (40_dispatch R231): taken when bit `n` of the zero-page byte is `b`. -/
def bitBranchSeq (n : Nat) (b : Bool) : Seq := fun _ c =>
  match c.cycle with
  | 0 | 1 => operandCycle c fun b1 c => { c with ptr := zpAddr b1 }.goto 2
  | 2 => readCycle c.ptr fun v c => { c with data := v }.goto 3
  | 3 => dummyCycle c.ptr (Cpu.goto 4)
  | 4 => operandCycle c fun b2 c =>
      if c.data.getLsbD n = b then (c.latchBranch b2).goto 5 else c.finish
  | 5 => dummyCycle c.pc fun c => if c.crossed then c.goto 6 else { c with pc := c.ea }.finish
  | _ => dummyCycle c.pc fun c => { c with pc := c.ea }.finish

/-- JMP absolute (40_dispatch R232). -/
def jmpAbsSeq : Seq := fun _ c =>
  match c.cycle with
  | 0 | 1 => firstOperand c
  | _ => operandCycle c fun b2 c => { c with pc := word b2 c.data }.finish

/-- JMP (absolute) and JMP (absolute,X) (40_dispatch R233, R234). -/
def jmpIndSeq (m : Mode) : Seq := fun _ c =>
  match c.cycle with
  | 0 | 1 => firstOperand c
  | 2 => operandCycle c fun b2 c => { c with ptr := indexed (word b2 c.data) (modeIndex m c) }.goto 3
  | 3 => dummyCycle (c.pc - 1) (Cpu.goto 4)
  | 4 => pointerLow 5 c
  | _ => readCycle (c.ptr + 1) fun hi c => { c with pc := word hi c.data }.finish

/-- JSR (40_dispatch R235): the high operand byte is fetched after the pushes. -/
def jumpSubroutineSeq : Seq := fun _ c =>
  match c.cycle with
  | 0 | 1 => firstOperand c
  | 2 => dummyCycle (stackAddr c.sp) (Cpu.goto 3)
  | 3 => pushCycle c (hiByte c.pc) (Cpu.goto 4)
  | 4 => pushCycle c (loByte c.pc) (Cpu.goto 5)
  | _ => operandCycle c fun b2 c => { c with pc := word b2 c.data }.finish

/-- RTS (40_dispatch R236). -/
def returnSubroutineSeq : Seq := fun _ c =>
  match c.cycle with
  | 0 | 1 => dummyCycle c.pc (Cpu.goto 2)
  | 2 => dummyCycle (stackAddr c.sp) (Cpu.goto 3)
  | 3 => pullCycle c fun lo c => { c with data := lo }.goto 4
  | 4 => pullCycle c fun hi c => { c with ptr := word hi c.data }.goto 5
  | _ => dummyCycle c.ptr fun c => { c with pc := c.ptr + 1 }.finish

/-- BRK (40_dispatch R238, 44_control R418). The signature stays in `data`: break control asks for it
(60_exceptions R783). -/
def breakSeq : Seq := fun p c =>
  match c.cycle with
  | 0 | 1 => operandCycle c fun sig c =>
      if p.brkSoftIgnoreSig = some sig then { c with data := sig }.finish
      else { c with data := sig }.goto 2
  | _ => enterHandler true irqVector c

/-- Push (40_dispatch R239). -/
def pushSeq (value : Cpu → Byte) : Seq := fun _ c =>
  match c.cycle with
  | 0 | 1 => dummyCycle c.pc (Cpu.goto 2)
  | _ => pushCycle c (value c) Cpu.finish

/-- Pull (40_dispatch R240). -/
def pullSeq (exec : Byte → Cpu → Cpu) : Seq := fun _ c =>
  match c.cycle with
  | 0 | 1 => dummyCycle c.pc (Cpu.goto 2)
  | 2 => dummyCycle (stackAddr c.sp) (Cpu.goto 3)
  | _ => pullCycle c fun v c => (exec v c).finish

/-- Undefined opcode 0x5C (40_dispatch R244; its dummy addresses are of low confidence, log 16). -/
def nop5CSeq : Seq := fun _ c =>
  match c.cycle with
  | 0 | 1 => firstOperand c
  | 2 => operandCycle c fun _ c => { c with ea := word 0xFF c.data }.goto 3
  | 3 => dummyCycle c.ea (Cpu.goto 4)
  | 4 => dummyCycle c.ea (Cpu.goto 5)
  | 5 => dummyCycle c.ea (Cpu.goto 6)
  | 6 => dummyCycle c.ea (Cpu.goto 7)
  | _ => dummyCycle c.ea Cpu.finish

/-- WAI and STP (40_dispatch R245): then the mode change. -/
def haltSeq (mode : CpuMode) : Seq := fun _ c =>
  match c.cycle with
  | 0 | 1 => dummyCycle c.pc (Cpu.goto 2)
  | _ => dummyCycle c.pc fun c => { c with mode := mode }.finish

end Sys2Proof.Machine
end

