-- ==== Sys2Proof/Machine/Alu.lean ====
section
/-! DEFINITION. Arithmetic, logic, compare and bit test (42_alu R340 to R350). -/

namespace Sys2Proof.Machine

/-- `exec(v)` of ADC (42_alu R340, R341). -/
def adcOp : ReadOp :=
  ⟨fun v c => { c with a := (adc c.flags c.a v).1, flags := (adc c.flags c.a v).2 }, true⟩

/-- ADC (42_alu R340, R341): its bus sequence. -/
def adcSeq (m : Mode) : Seq := readSeq m adcOp

/-- ADC (42_alu R340, R341). -/
def execAdc (m : Mode) (s : State) : Res State := runWf (Instr.adc m).wf (adcSeq m) s

/-- `exec(v)` of SBC (42_alu R342, R343). -/
def sbcOp : ReadOp :=
  ⟨fun v c => { c with a := (sbc c.flags c.a v).1, flags := (sbc c.flags c.a v).2 }, true⟩

/-- SBC (42_alu R342, R343): its bus sequence. -/
def sbcSeq (m : Mode) : Seq := readSeq m sbcOp

/-- SBC (42_alu R342, R343). -/
def execSbc (m : Mode) (s : State) : Res State := runWf (Instr.sbc m).wf (sbcSeq m) s

/-- `exec(v)` of AND (42_alu R344). -/
def andOp : ReadOp :=
  ⟨fun v c => { c with a := c.a &&& v, flags := c.flags.setNZ (c.a &&& v) }, false⟩

/-- AND (42_alu R344): its bus sequence. -/
def andSeq (m : Mode) : Seq := readSeq m andOp

/-- AND (42_alu R344). -/
def execAnd (m : Mode) (s : State) : Res State := runWf (Instr.and m).wf (andSeq m) s

/-- `exec(v)` of ORA (42_alu R345). -/
def oraOp : ReadOp :=
  ⟨fun v c => { c with a := c.a ||| v, flags := c.flags.setNZ (c.a ||| v) }, false⟩

/-- ORA (42_alu R345): its bus sequence. -/
def oraSeq (m : Mode) : Seq := readSeq m oraOp

/-- ORA (42_alu R345). -/
def execOra (m : Mode) (s : State) : Res State := runWf (Instr.ora m).wf (oraSeq m) s

/-- `exec(v)` of EOR (42_alu R346). -/
def eorOp : ReadOp :=
  ⟨fun v c => { c with a := c.a ^^^ v, flags := c.flags.setNZ (c.a ^^^ v) }, false⟩

/-- EOR (42_alu R346): its bus sequence. -/
def eorSeq (m : Mode) : Seq := readSeq m eorOp

/-- EOR (42_alu R346). -/
def execEor (m : Mode) (s : State) : Res State := runWf (Instr.eor m).wf (eorSeq m) s

/-- `exec(v)` of CMP (42_alu R347). -/
def cmpOp : ReadOp := ⟨fun v c => { c with flags := compareFlags c.flags c.a v }, false⟩

/-- CMP (42_alu R347): its bus sequence. -/
def cmpSeq (m : Mode) : Seq := readSeq m cmpOp

/-- CMP (42_alu R347). -/
def execCmp (m : Mode) (s : State) : Res State := runWf (Instr.cmp m).wf (cmpSeq m) s

/-- `exec(v)` of CPX (42_alu R348). -/
def cpxOp : ReadOp := ⟨fun v c => { c with flags := compareFlags c.flags c.x v }, false⟩

/-- CPX (42_alu R348): its bus sequence. -/
def cpxSeq (m : Mode) : Seq := readSeq m cpxOp

/-- CPX (42_alu R348). -/
def execCpx (m : Mode) (s : State) : Res State := runWf (Instr.cpx m).wf (cpxSeq m) s

/-- `exec(v)` of CPY (42_alu R349). -/
def cpyOp : ReadOp := ⟨fun v c => { c with flags := compareFlags c.flags c.y v }, false⟩

/-- CPY (42_alu R349): its bus sequence. -/
def cpySeq (m : Mode) : Seq := readSeq m cpyOp

/-- CPY (42_alu R349). -/
def execCpy (m : Mode) (s : State) : Res State := runWf (Instr.cpy m).wf (cpySeq m) s

/-- `exec(v)` of the immediate BIT (42_alu R350). -/
def bitImmOp : ReadOp := ⟨fun v c => { c with flags := bitImmFlags c.flags c.a v }, false⟩

/-- `exec(v)` of BIT from memory (42_alu R350). -/
def bitMemOp : ReadOp := ⟨fun v c => { c with flags := bitMemFlags c.flags c.a v }, false⟩

/-- `exec(v)` of BIT by mode: only the immediate form keeps N and V (42_alu R350). -/
def bitOp : Mode → ReadOp
  | .imm => bitImmOp
  | _ => bitMemOp

/-- BIT (42_alu R350): its bus sequence. -/
def bitSeq (m : Mode) : Seq := readSeq m (bitOp m)

/-- BIT (42_alu R350). -/
def execBit (m : Mode) (s : State) : Res State := runWf (Instr.bit m).wf (bitSeq m) s

end Sys2Proof.Machine
end

