-- ==== Sys2Proof/Machine/Control.lean ====
section
/-! DEFINITION. Control transfer (44_control R400 to R418). -/

namespace Sys2Proof.Machine

/-- BPL (44_control R401): its bus sequence. -/
def bplSeq : Seq := branchSeq fun f => !f.n

/-- BPL (44_control R401). -/
def execBpl (s : State) : Res State := runSeq bplSeq s

/-- BMI (44_control R402): its bus sequence. -/
def bmiSeq : Seq := branchSeq fun f => f.n

/-- BMI (44_control R402). -/
def execBmi (s : State) : Res State := runSeq bmiSeq s

/-- BVC (44_control R403): its bus sequence. -/
def bvcSeq : Seq := branchSeq fun f => !f.v

/-- BVC (44_control R403). -/
def execBvc (s : State) : Res State := runSeq bvcSeq s

/-- BVS (44_control R404): its bus sequence. -/
def bvsSeq : Seq := branchSeq fun f => f.v

/-- BVS (44_control R404). -/
def execBvs (s : State) : Res State := runSeq bvsSeq s

/-- BCC (44_control R405): its bus sequence. -/
def bccSeq : Seq := branchSeq fun f => !f.c

/-- BCC (44_control R405). -/
def execBcc (s : State) : Res State := runSeq bccSeq s

/-- BCS (44_control R406): its bus sequence. -/
def bcsSeq : Seq := branchSeq fun f => f.c

/-- BCS (44_control R406). -/
def execBcs (s : State) : Res State := runSeq bcsSeq s

/-- BNE (44_control R407): its bus sequence. -/
def bneSeq : Seq := branchSeq fun f => !f.z

/-- BNE (44_control R407). -/
def execBne (s : State) : Res State := runSeq bneSeq s

/-- BEQ (44_control R408): its bus sequence. -/
def beqSeq : Seq := branchSeq fun f => f.z

/-- BEQ (44_control R408). -/
def execBeq (s : State) : Res State := runSeq beqSeq s

/-- BRA (44_control R409): its bus sequence. -/
def braSeq : Seq := branchSeq fun _ => true

/-- BRA (44_control R409). -/
def execBra (s : State) : Res State := runSeq braSeq s

/-- BBR0 (44_control R410): its bus sequence. -/
def bbr0Seq : Seq := bitBranchSeq 0 false

/-- BBR0 (44_control R410). -/
def execBbr0 (s : State) : Res State := runSeq bbr0Seq s

/-- BBR1 (44_control R410): its bus sequence. -/
def bbr1Seq : Seq := bitBranchSeq 1 false

/-- BBR1 (44_control R410). -/
def execBbr1 (s : State) : Res State := runSeq bbr1Seq s

/-- BBR2 (44_control R410): its bus sequence. -/
def bbr2Seq : Seq := bitBranchSeq 2 false

/-- BBR2 (44_control R410). -/
def execBbr2 (s : State) : Res State := runSeq bbr2Seq s

/-- BBR3 (44_control R410): its bus sequence. -/
def bbr3Seq : Seq := bitBranchSeq 3 false

/-- BBR3 (44_control R410). -/
def execBbr3 (s : State) : Res State := runSeq bbr3Seq s

/-- BBR4 (44_control R410): its bus sequence. -/
def bbr4Seq : Seq := bitBranchSeq 4 false

/-- BBR4 (44_control R410). -/
def execBbr4 (s : State) : Res State := runSeq bbr4Seq s

/-- BBR5 (44_control R410): its bus sequence. -/
def bbr5Seq : Seq := bitBranchSeq 5 false

/-- BBR5 (44_control R410). -/
def execBbr5 (s : State) : Res State := runSeq bbr5Seq s

/-- BBR6 (44_control R410): its bus sequence. -/
def bbr6Seq : Seq := bitBranchSeq 6 false

/-- BBR6 (44_control R410). -/
def execBbr6 (s : State) : Res State := runSeq bbr6Seq s

/-- BBR7 (44_control R410): its bus sequence. -/
def bbr7Seq : Seq := bitBranchSeq 7 false

/-- BBR7 (44_control R410). -/
def execBbr7 (s : State) : Res State := runSeq bbr7Seq s

/-- BBS0 (44_control R411): its bus sequence. -/
def bbs0Seq : Seq := bitBranchSeq 0 true

/-- BBS0 (44_control R411). -/
def execBbs0 (s : State) : Res State := runSeq bbs0Seq s

/-- BBS1 (44_control R411): its bus sequence. -/
def bbs1Seq : Seq := bitBranchSeq 1 true

/-- BBS1 (44_control R411). -/
def execBbs1 (s : State) : Res State := runSeq bbs1Seq s

/-- BBS2 (44_control R411): its bus sequence. -/
def bbs2Seq : Seq := bitBranchSeq 2 true

/-- BBS2 (44_control R411). -/
def execBbs2 (s : State) : Res State := runSeq bbs2Seq s

/-- BBS3 (44_control R411): its bus sequence. -/
def bbs3Seq : Seq := bitBranchSeq 3 true

/-- BBS3 (44_control R411). -/
def execBbs3 (s : State) : Res State := runSeq bbs3Seq s

/-- BBS4 (44_control R411): its bus sequence. -/
def bbs4Seq : Seq := bitBranchSeq 4 true

/-- BBS4 (44_control R411). -/
def execBbs4 (s : State) : Res State := runSeq bbs4Seq s

/-- BBS5 (44_control R411): its bus sequence. -/
def bbs5Seq : Seq := bitBranchSeq 5 true

/-- BBS5 (44_control R411). -/
def execBbs5 (s : State) : Res State := runSeq bbs5Seq s

/-- BBS6 (44_control R411): its bus sequence. -/
def bbs6Seq : Seq := bitBranchSeq 6 true

/-- BBS6 (44_control R411). -/
def execBbs6 (s : State) : Res State := runSeq bbs6Seq s

/-- BBS7 (44_control R411): its bus sequence. -/
def bbs7Seq : Seq := bitBranchSeq 7 true

/-- BBS7 (44_control R411). -/
def execBbs7 (s : State) : Res State := runSeq bbs7Seq s

/-- JMP (44_control R412): its bus sequence. -/
def jmpSeq (m : Mode) : Seq :=
  match m with
  | .abs => jmpAbsSeq
  | _ => jmpIndSeq m

/-- JMP (44_control R412). -/
def execJmp (m : Mode) (s : State) : Res State := runWf (Instr.jmp m).wf (jmpSeq m) s

/-- JSR (44_control R415): its bus sequence. -/
def jsrSeq : Seq := jumpSubroutineSeq

/-- JSR (44_control R415). -/
def execJsr (s : State) : Res State := runSeq jsrSeq s

/-- RTS (44_control R416): its bus sequence. -/
def rtsSeq : Seq := returnSubroutineSeq

/-- RTS (44_control R416). -/
def execRts (s : State) : Res State := runSeq rtsSeq s

/-- RTI (44_control R417): its bus sequence. -/
def rtiSeq : Seq := returnSeq

/-- RTI (44_control R417). -/
def execRti (s : State) : Res State := runSeq rtiSeq s

/-- BRK (44_control R418): its bus sequence. -/
def brkSeq : Seq := breakSeq

/-- BRK (44_control R418). -/
def execBrk (s : State) : Res State := runSeq brkSeq s

end Sys2Proof.Machine
end

