-- ==== Sys2Proof/Machine/LoadStore.lean ====
section
/-! DEFINITION. Loads, stores and register transfers (41_load_store R300 to R312). -/

namespace Sys2Proof.Machine

/-! ### Loads -/

/-- `exec(v)` of LDA: `A <- v` with N and Z (41_load_store R300). -/
def ldaOp : ReadOp := ⟨fun v c => { c with a := v, flags := c.flags.setNZ v }, false⟩

/-- LDA (41_load_store R300): its bus sequence. -/
def ldaSeq (m : Mode) : Seq := readSeq m ldaOp

/-- LDA (41_load_store R300). -/
def execLda (m : Mode) (s : State) : Res State := runWf (Instr.lda m).wf (ldaSeq m) s

/-- `exec(v)` of LDX: `X <- v` with N and Z (41_load_store R301). -/
def ldxOp : ReadOp := ⟨fun v c => { c with x := v, flags := c.flags.setNZ v }, false⟩

/-- LDX (41_load_store R301): its bus sequence. -/
def ldxSeq (m : Mode) : Seq := readSeq m ldxOp

/-- LDX (41_load_store R301). -/
def execLdx (m : Mode) (s : State) : Res State := runWf (Instr.ldx m).wf (ldxSeq m) s

/-- `exec(v)` of LDY: `Y <- v` with N and Z (41_load_store R302). -/
def ldyOp : ReadOp := ⟨fun v c => { c with y := v, flags := c.flags.setNZ v }, false⟩

/-- LDY (41_load_store R302): its bus sequence. -/
def ldySeq (m : Mode) : Seq := readSeq m ldyOp

/-- LDY (41_load_store R302). -/
def execLdy (m : Mode) (s : State) : Res State := runWf (Instr.ldy m).wf (ldySeq m) s

/-! ### Stores -/

/-- STA (41_load_store R303): its bus sequence. -/
def staSeq (m : Mode) : Seq := writeSeq m fun c => c.a

/-- STA (41_load_store R303). -/
def execSta (m : Mode) (s : State) : Res State := runWf (Instr.sta m).wf (staSeq m) s

/-- STX (41_load_store R304): its bus sequence. -/
def stxSeq (m : Mode) : Seq := writeSeq m fun c => c.x

/-- STX (41_load_store R304). -/
def execStx (m : Mode) (s : State) : Res State := runWf (Instr.stx m).wf (stxSeq m) s

/-- STY (41_load_store R305): its bus sequence. -/
def stySeq (m : Mode) : Seq := writeSeq m fun c => c.y

/-- STY (41_load_store R305). -/
def execSty (m : Mode) (s : State) : Res State := runWf (Instr.sty m).wf (stySeq m) s

/-- STZ (41_load_store R306): its bus sequence. -/
def stzSeq (m : Mode) : Seq := writeSeq m fun _ => 0

/-- STZ (41_load_store R306). -/
def execStz (m : Mode) (s : State) : Res State := runWf (Instr.stz m).wf (stzSeq m) s

/-! ### Transfers -/

/-- TAX (41_load_store R307): its bus sequence. -/
def taxSeq : Seq := impliedSeq fun c => { c with x := c.a, flags := c.flags.setNZ c.a }

/-- TAX (41_load_store R307). -/
def execTax (s : State) : Res State := runSeq taxSeq s

/-- TAY (41_load_store R308): its bus sequence. -/
def taySeq : Seq := impliedSeq fun c => { c with y := c.a, flags := c.flags.setNZ c.a }

/-- TAY (41_load_store R308). -/
def execTay (s : State) : Res State := runSeq taySeq s

/-- TXA (41_load_store R309): its bus sequence. -/
def txaSeq : Seq := impliedSeq fun c => { c with a := c.x, flags := c.flags.setNZ c.x }

/-- TXA (41_load_store R309). -/
def execTxa (s : State) : Res State := runSeq txaSeq s

/-- TYA (41_load_store R310): its bus sequence. -/
def tyaSeq : Seq := impliedSeq fun c => { c with a := c.y, flags := c.flags.setNZ c.y }

/-- TYA (41_load_store R310). -/
def execTya (s : State) : Res State := runSeq tyaSeq s

/-- TSX (41_load_store R311): its bus sequence. -/
def tsxSeq : Seq := impliedSeq fun c => { c with x := c.sp, flags := c.flags.setNZ c.sp }

/-- TSX (41_load_store R311). -/
def execTsx (s : State) : Res State := runSeq tsxSeq s

/-- TXS (41_load_store R312): its bus sequence. -/
def txsSeq : Seq := impliedSeq fun c => { c with sp := c.x }

/-- TXS (41_load_store R312). -/
def execTxs (s : State) : Res State := runSeq txsSeq s

end Sys2Proof.Machine
end

