-- ==== Sys2Proof/Machine/Rmw.lean ====
section
/-! DEFINITION. Shifts, increments, bit set and reset (43_rmw R370 to R383). -/

namespace Sys2Proof.Machine

/-- ASL (43_rmw R370): its bus sequence. -/
def aslSeq (m : Mode) : Seq := rmwSeq m false (fun c v => asl c.flags v)

/-- ASL (43_rmw R370). -/
def execAsl (m : Mode) (s : State) : Res State := runWf (Instr.asl m).wf (aslSeq m) s

/-- LSR (43_rmw R371): its bus sequence. -/
def lsrSeq (m : Mode) : Seq := rmwSeq m false (fun c v => lsr c.flags v)

/-- LSR (43_rmw R371). -/
def execLsr (m : Mode) (s : State) : Res State := runWf (Instr.lsr m).wf (lsrSeq m) s

/-- ROL (43_rmw R372): its bus sequence. -/
def rolSeq (m : Mode) : Seq := rmwSeq m false (fun c v => rol c.flags v)

/-- ROL (43_rmw R372). -/
def execRol (m : Mode) (s : State) : Res State := runWf (Instr.rol m).wf (rolSeq m) s

/-- ROR (43_rmw R373): its bus sequence. -/
def rorSeq (m : Mode) : Seq := rmwSeq m false (fun c v => ror c.flags v)

/-- ROR (43_rmw R373). -/
def execRor (m : Mode) (s : State) : Res State := runWf (Instr.ror m).wf (rorSeq m) s

/-- INC (43_rmw R374): its bus sequence. -/
def incSeq (m : Mode) : Seq := rmwSeq m true (fun c v => incByte c.flags v)

/-- INC (43_rmw R374). -/
def execInc (m : Mode) (s : State) : Res State := runWf (Instr.inc m).wf (incSeq m) s

/-- DEC (43_rmw R375): its bus sequence. -/
def decSeq (m : Mode) : Seq := rmwSeq m true (fun c v => decByte c.flags v)

/-- DEC (43_rmw R375). -/
def execDec (m : Mode) (s : State) : Res State := runWf (Instr.dec m).wf (decSeq m) s

/-- INX (43_rmw R376): its bus sequence. -/
def inxSeq : Seq := impliedSeq fun c => { c with x := (incByte c.flags c.x).1, flags := (incByte c.flags c.x).2 }

/-- INX (43_rmw R376). -/
def execInx (s : State) : Res State := runSeq inxSeq s

/-- INY (43_rmw R377): its bus sequence. -/
def inySeq : Seq := impliedSeq fun c => { c with y := (incByte c.flags c.y).1, flags := (incByte c.flags c.y).2 }

/-- INY (43_rmw R377). -/
def execIny (s : State) : Res State := runSeq inySeq s

/-- DEX (43_rmw R378): its bus sequence. -/
def dexSeq : Seq := impliedSeq fun c => { c with x := (decByte c.flags c.x).1, flags := (decByte c.flags c.x).2 }

/-- DEX (43_rmw R378). -/
def execDex (s : State) : Res State := runSeq dexSeq s

/-- DEY (43_rmw R379): its bus sequence. -/
def deySeq : Seq := impliedSeq fun c => { c with y := (decByte c.flags c.y).1, flags := (decByte c.flags c.y).2 }

/-- DEY (43_rmw R379). -/
def execDey (s : State) : Res State := runSeq deySeq s

/-- TSB (43_rmw R380): its bus sequence. -/
def tsbSeq (m : Mode) : Seq := rmwSeq m false (fun c v => tsb c.a c.flags v)

/-- TSB (43_rmw R380). -/
def execTsb (m : Mode) (s : State) : Res State := runWf (Instr.tsb m).wf (tsbSeq m) s

/-- TRB (43_rmw R381): its bus sequence. -/
def trbSeq (m : Mode) : Seq := rmwSeq m false (fun c v => trb c.a c.flags v)

/-- TRB (43_rmw R381). -/
def execTrb (m : Mode) (s : State) : Res State := runWf (Instr.trb m).wf (trbSeq m) s

/-- RMB0 (43_rmw R382): its bus sequence. -/
def rmb0Seq : Seq := rmwSeq .zp false (fun c v => rmb 0 c.flags v)

/-- RMB0 (43_rmw R382). -/
def execRmb0 (s : State) : Res State := runSeq rmb0Seq s

/-- RMB1 (43_rmw R382): its bus sequence. -/
def rmb1Seq : Seq := rmwSeq .zp false (fun c v => rmb 1 c.flags v)

/-- RMB1 (43_rmw R382). -/
def execRmb1 (s : State) : Res State := runSeq rmb1Seq s

/-- RMB2 (43_rmw R382): its bus sequence. -/
def rmb2Seq : Seq := rmwSeq .zp false (fun c v => rmb 2 c.flags v)

/-- RMB2 (43_rmw R382). -/
def execRmb2 (s : State) : Res State := runSeq rmb2Seq s

/-- RMB3 (43_rmw R382): its bus sequence. -/
def rmb3Seq : Seq := rmwSeq .zp false (fun c v => rmb 3 c.flags v)

/-- RMB3 (43_rmw R382). -/
def execRmb3 (s : State) : Res State := runSeq rmb3Seq s

/-- RMB4 (43_rmw R382): its bus sequence. -/
def rmb4Seq : Seq := rmwSeq .zp false (fun c v => rmb 4 c.flags v)

/-- RMB4 (43_rmw R382). -/
def execRmb4 (s : State) : Res State := runSeq rmb4Seq s

/-- RMB5 (43_rmw R382): its bus sequence. -/
def rmb5Seq : Seq := rmwSeq .zp false (fun c v => rmb 5 c.flags v)

/-- RMB5 (43_rmw R382). -/
def execRmb5 (s : State) : Res State := runSeq rmb5Seq s

/-- RMB6 (43_rmw R382): its bus sequence. -/
def rmb6Seq : Seq := rmwSeq .zp false (fun c v => rmb 6 c.flags v)

/-- RMB6 (43_rmw R382). -/
def execRmb6 (s : State) : Res State := runSeq rmb6Seq s

/-- RMB7 (43_rmw R382): its bus sequence. -/
def rmb7Seq : Seq := rmwSeq .zp false (fun c v => rmb 7 c.flags v)

/-- RMB7 (43_rmw R382). -/
def execRmb7 (s : State) : Res State := runSeq rmb7Seq s

/-- SMB0 (43_rmw R383): its bus sequence. -/
def smb0Seq : Seq := rmwSeq .zp false (fun c v => smb 0 c.flags v)

/-- SMB0 (43_rmw R383). -/
def execSmb0 (s : State) : Res State := runSeq smb0Seq s

/-- SMB1 (43_rmw R383): its bus sequence. -/
def smb1Seq : Seq := rmwSeq .zp false (fun c v => smb 1 c.flags v)

/-- SMB1 (43_rmw R383). -/
def execSmb1 (s : State) : Res State := runSeq smb1Seq s

/-- SMB2 (43_rmw R383): its bus sequence. -/
def smb2Seq : Seq := rmwSeq .zp false (fun c v => smb 2 c.flags v)

/-- SMB2 (43_rmw R383). -/
def execSmb2 (s : State) : Res State := runSeq smb2Seq s

/-- SMB3 (43_rmw R383): its bus sequence. -/
def smb3Seq : Seq := rmwSeq .zp false (fun c v => smb 3 c.flags v)

/-- SMB3 (43_rmw R383). -/
def execSmb3 (s : State) : Res State := runSeq smb3Seq s

/-- SMB4 (43_rmw R383): its bus sequence. -/
def smb4Seq : Seq := rmwSeq .zp false (fun c v => smb 4 c.flags v)

/-- SMB4 (43_rmw R383). -/
def execSmb4 (s : State) : Res State := runSeq smb4Seq s

/-- SMB5 (43_rmw R383): its bus sequence. -/
def smb5Seq : Seq := rmwSeq .zp false (fun c v => smb 5 c.flags v)

/-- SMB5 (43_rmw R383). -/
def execSmb5 (s : State) : Res State := runSeq smb5Seq s

/-- SMB6 (43_rmw R383): its bus sequence. -/
def smb6Seq : Seq := rmwSeq .zp false (fun c v => smb 6 c.flags v)

/-- SMB6 (43_rmw R383). -/
def execSmb6 (s : State) : Res State := runSeq smb6Seq s

/-- SMB7 (43_rmw R383): its bus sequence. -/
def smb7Seq : Seq := rmwSeq .zp false (fun c v => smb 7 c.flags v)

/-- SMB7 (43_rmw R383). -/
def execSmb7 (s : State) : Res State := runSeq smb7Seq s

end Sys2Proof.Machine
end

