-- ==== Sys2Proof/Machine/StackMisc.lean ====
section
/-! DEFINITION. Stack, flag, no-op and halt instructions (45_stack_flags_misc R430 to R453). -/

namespace Sys2Proof.Machine

/-- PHA (45_stack_flags_misc R430): its bus sequence. -/
def phaSeq : Seq := pushSeq fun c => c.a

/-- PHA (45_stack_flags_misc R430). -/
def execPha (s : State) : Res State := runSeq phaSeq s

/-- PHP (45_stack_flags_misc R431): its bus sequence. -/
def phpSeq : Seq := pushSeq fun c => c.flags.pack true

/-- PHP (45_stack_flags_misc R431). -/
def execPhp (s : State) : Res State := runSeq phpSeq s

/-- PHX (45_stack_flags_misc R432): its bus sequence. -/
def phxSeq : Seq := pushSeq fun c => c.x

/-- PHX (45_stack_flags_misc R432). -/
def execPhx (s : State) : Res State := runSeq phxSeq s

/-- PHY (45_stack_flags_misc R433): its bus sequence. -/
def phySeq : Seq := pushSeq fun c => c.y

/-- PHY (45_stack_flags_misc R433). -/
def execPhy (s : State) : Res State := runSeq phySeq s

/-- PLA (45_stack_flags_misc R434): its bus sequence. -/
def plaSeq : Seq := pullSeq fun v c => { c with a := v, flags := c.flags.setNZ v }

/-- PLA (45_stack_flags_misc R434). -/
def execPla (s : State) : Res State := runSeq plaSeq s

/-- PLX (45_stack_flags_misc R436): its bus sequence. -/
def plxSeq : Seq := pullSeq fun v c => { c with x := v, flags := c.flags.setNZ v }

/-- PLX (45_stack_flags_misc R436). -/
def execPlx (s : State) : Res State := runSeq plxSeq s

/-- PLY (45_stack_flags_misc R437): its bus sequence. -/
def plySeq : Seq := pullSeq fun v c => { c with y := v, flags := c.flags.setNZ v }

/-- PLY (45_stack_flags_misc R437). -/
def execPly (s : State) : Res State := runSeq plySeq s

/-- PLP (45_stack_flags_misc R435): its bus sequence. -/
def plpSeq : Seq := pullSeq fun v c => { c with flags := Flags.unpack v }

/-- PLP (45_stack_flags_misc R435). -/
def execPlp (s : State) : Res State := runSeq plpSeq s

/-- CLC (45_stack_flags_misc R438): its bus sequence. -/
def clcSeq : Seq := impliedSeq fun c => { c with flags := { c.flags with c := false } }

/-- CLC (45_stack_flags_misc R438). -/
def execClc (s : State) : Res State := runSeq clcSeq s

/-- SEC (45_stack_flags_misc R439): its bus sequence. -/
def secSeq : Seq := impliedSeq fun c => { c with flags := { c.flags with c := true } }

/-- SEC (45_stack_flags_misc R439). -/
def execSec (s : State) : Res State := runSeq secSeq s

/-- CLI (45_stack_flags_misc R440): its bus sequence. -/
def cliSeq : Seq := impliedSeq fun c => { c with flags := { c.flags with i := false } }

/-- CLI (45_stack_flags_misc R440). -/
def execCli (s : State) : Res State := runSeq cliSeq s

/-- SEI (45_stack_flags_misc R441): its bus sequence. -/
def seiSeq : Seq := impliedSeq fun c => { c with flags := { c.flags with i := true } }

/-- SEI (45_stack_flags_misc R441). -/
def execSei (s : State) : Res State := runSeq seiSeq s

/-- CLD (45_stack_flags_misc R442): its bus sequence. -/
def cldSeq : Seq := impliedSeq fun c => { c with flags := { c.flags with d := false } }

/-- CLD (45_stack_flags_misc R442). -/
def execCld (s : State) : Res State := runSeq cldSeq s

/-- SED (45_stack_flags_misc R443): its bus sequence. -/
def sedSeq : Seq := impliedSeq fun c => { c with flags := { c.flags with d := true } }

/-- SED (45_stack_flags_misc R443). -/
def execSed (s : State) : Res State := runSeq sedSeq s

/-- CLV (45_stack_flags_misc R444): its bus sequence. -/
def clvSeq : Seq := impliedSeq fun c => { c with flags := { c.flags with v := false } }

/-- CLV (45_stack_flags_misc R444). -/
def execClv (s : State) : Res State := runSeq clvSeq s

/-- NOP (45_stack_flags_misc R445): its bus sequence. -/
def nopSeq : Seq := impliedSeq fun c => c

/-- NOP (45_stack_flags_misc R445). -/
def execNop (s : State) : Res State := runSeq nopSeq s

/-- The undefined 1-byte no-op (45_stack_flags_misc R446, 40_dispatch R242): its FETCH_OPCODE is its only
bus cycle, so it is complete as it is. -/
def execNopOne (op : Byte) (s : State) : Res State :=
  if (Instr.nopOne op).wf then .next { s with cpu := s.cpu.finish } else .refused .illFormed

/-- The operation of an undefined read no-op: the value is dropped (40_dispatch R243). -/
def dropOp : ReadOp := ⟨fun _ c => c, false⟩

/-- The undefined immediate no-op (45_stack_flags_misc R447): its bus sequence. -/
def nopImmSeq : Seq := readSeq .imm dropOp

/-- The undefined immediate no-op (45_stack_flags_misc R447). -/
def execNopImm (op : Byte) (s : State) : Res State := runWf (Instr.nopImm op).wf nopImmSeq s

/-- The undefined zero-page no-op 0x44 (45_stack_flags_misc R448): its bus sequence. -/
def nopZpSeq : Seq := readSeq .zp dropOp

/-- The undefined zero-page no-op 0x44 (45_stack_flags_misc R448). -/
def execNopZp (s : State) : Res State := runSeq nopZpSeq s

/-- The undefined zero-page,X no-op (45_stack_flags_misc R449): its bus sequence. -/
def nopZpXSeq : Seq := readSeq .zpX dropOp

/-- The undefined zero-page,X no-op (45_stack_flags_misc R449). -/
def execNopZpX (op : Byte) (s : State) : Res State := runWf (Instr.nopZpX op).wf nopZpXSeq s

/-- The undefined absolute no-op (45_stack_flags_misc R450): its bus sequence. -/
def nopAbsSeq : Seq := readSeq .abs dropOp

/-- The undefined absolute no-op (45_stack_flags_misc R450). -/
def execNopAbs (op : Byte) (s : State) : Res State := runWf (Instr.nopAbs op).wf nopAbsSeq s

/-- The undefined no-op 0x5C (45_stack_flags_misc R451). -/
def execNop5C (s : State) : Res State := runSeq nop5CSeq s

/-- WAI (45_stack_flags_misc R452): its bus sequence. -/
def waiSeq : Seq := haltSeq .waiting

/-- WAI (45_stack_flags_misc R452). -/
def execWai (s : State) : Res State := runSeq waiSeq s

/-- STP (45_stack_flags_misc R453): its bus sequence. -/
def stpSeq : Seq := haltSeq .stopped

/-- STP (45_stack_flags_misc R453). -/
def execStp (s : State) : Res State := runSeq stpSeq s

end Sys2Proof.Machine
end

