-- ==== Sys2Proof/Machine/HostCalls.lean ====
section
/-! DEFINITION. What the host can do to the machine, each call applied between two runs (55_system R709,
R714, R717, 70_reset R801). -/

namespace Sys2Proof.Machine

/-- A break flag the host or `run` can arm (60_exceptions R780). -/
inductive BreakFlag where
  | next
  | stepIn
  | stepOver
  | stepOut
  | fromTrap
  deriving DecidableEq, Repr

/-- The modes of `run` (55_system R717). -/
inductive RunMode where
  | free
  | next
  | stepIn
  | stepOver
  | stepOut
  deriving DecidableEq, Repr

/-- Arms a break flag: the first sequence counted is the next one to complete (60_exceptions R781, R783,
R784). -/
def Cpu.arm (f : BreakFlag) (c : Cpu) : Cpu :=
  let b := { c.brk with evalPending := false }
  match f with
  | .next => { c with brk := { b with next := true } }
  | .stepIn => { c with brk := { b with stepIn := true } }
  | .stepOver => { c with brk := { b with stepOver := true, stepSP := c.sp, stepDeep := false } }
  | .stepOut => { c with brk := { b with stepOut := true, stepSP := c.sp } }
  | .fromTrap => { c with brk := { b with fromTrap := true } }

/-- The flag a run mode names (55_system R717). -/
def RunMode.flag : RunMode → Option BreakFlag
  | .free => none
  | .next => some .next
  | .stepIn => some .stepIn
  | .stepOver => some .stepOver
  | .stepOut => some .stepOut

/-- The host sets a break-request flag (55_system R714). -/
def armBreak (f : BreakFlag) (s : State) : State := { s with cpu := s.cpu.arm f }

/-- Entry to `run(mode)` (55_system R717); the steps that follow are the run. -/
def hostRun (m : RunMode) (s : State) : State :=
  let c := { s.cpu with brk := { s.cpu.brk with reason := .none } }
  { s with
    runExit := none
    cpu := match m.flag with | none => c | some f => c.arm f }

/-- `advanceAudio(R, K, mode)` up to its run (55_system R709 steps 1 to 4). With `K = 0` the run exits at
once. A rate of 0 is a host error (R712). Step 2 gives `K` slots and says no value for them: that each holds 0, the
silent sample, before its sample is taken is a DESIGN CHOICE (log 24). -/
def beginAdvanceAudio (rate k : Nat) (m : RunMode) (s : State) : Res State :=
  if rate = 0 then .refused .sampleRateZero
  else
    let s := { s with
      queue := cancel .audioSample s.queue
      sampling := ⟨true, List.replicate k 0, 0, rate, s.now⟩ }
    let s := if 0 < k then { s with queue := push ⟨.audioSample, s.sampleTick 0⟩ s.queue } else s
    .next (hostRun m s).settle

/-- `advanceAudio` after its run (55_system R709 steps 5 and 6): silence in every slot not produced, the
pending sample cancelled. The buffer and the number of samples are left in `sampling`. -/
def finishAdvanceAudio (s : State) : State :=
  let b := s.sampling.buf
  { s with
    queue := cancel .audioSample s.queue
    sampling := { s.sampling with
      active := false
      buf := b.take s.sampling.idx ++ List.replicate (b.length - s.sampling.idx) 0 } }

/-- Step 3 of `pulseReset()` (70_reset R801). -/
def assertReset (s : State) : State :=
  { s with
    resetLine := true
    cpu := { s.cpu with pendReset := true }
    queue := push ⟨.resetRelease, s.now + BitVec.ofNat 64 Config.resetTicks⟩ s.queue }

/-- `pulseReset()`: deferred while the sprite device is busy, without effect while a reset window is
running (70_reset R801). -/
def pulseReset (s : State) : State :=
  if s.suzy.busy then { s with resetDeferred := true }
  else if s.resetLine then s
  else assertReset s

/-- `setNMI(level)`: the rising edge makes an NMI pending (60_exceptions R757). -/
def setNmi (level : Bool) (s : State) : State :=
  { s with nmiIn := level, cpu := { s.cpu with pendNmi := s.cpu.pendNmi || (level && !s.nmiIn) } }

/-- `serialReceive(b)` (55_system R714, 54_controller_chip R661, R654). -/
def serialReceive (b : Byte) (s : State) : State :=
  applySerialIrq { s with serial := { s.serial with rxData := b, rxReady := true } }

/-- `setIOIn(v)` (55_system R714). -/
def setIoIn (v : Byte) (s : State) : State := { s with ioIn := v }

/-- Registers a trap after those there are (55_system R708, R714). -/
def registerTrap (x : Trap) (s : State) : State := { s with traps := s.traps ++ [x] }

/-- Removes trap number `i` (55_system R714). -/
def removeTrap (i : Nat) (s : State) : State := { s with traps := s.traps.eraseIdx i }

end Sys2Proof.Machine
end

