-- ==== Sys2Proof/Machine/SeqOf.lean ====
section
/-! DEFINITION. The bus sequence of every instruction (40_dispatch R203), for the loop step that runs one bus
cycle (55_system R702). -/

namespace Sys2Proof.Machine

/-- The bus sequence an instruction runs (40_dispatch R203); the one-cycle no-op has none left when its
fetch is answered (R242), and its entry here is never run. -/
def seqOf : Instr → Seq
  | .lda m => ldaSeq m
  | .ldx m => ldxSeq m
  | .ldy m => ldySeq m
  | .sta m => staSeq m
  | .stx m => stxSeq m
  | .sty m => stySeq m
  | .stz m => stzSeq m
  | .tax => taxSeq
  | .tay => taySeq
  | .txa => txaSeq
  | .tya => tyaSeq
  | .tsx => tsxSeq
  | .txs => txsSeq
  | .adc m => adcSeq m
  | .sbc m => sbcSeq m
  | .and m => andSeq m
  | .ora m => oraSeq m
  | .eor m => eorSeq m
  | .cmp m => cmpSeq m
  | .cpx m => cpxSeq m
  | .cpy m => cpySeq m
  | .bit m => bitSeq m
  | .asl m => aslSeq m
  | .lsr m => lsrSeq m
  | .rol m => rolSeq m
  | .ror m => rorSeq m
  | .inc m => incSeq m
  | .dec m => decSeq m
  | .inx => inxSeq
  | .iny => inySeq
  | .dex => dexSeq
  | .dey => deySeq
  | .tsb m => tsbSeq m
  | .trb m => trbSeq m
  | .rmb0 => rmb0Seq
  | .rmb1 => rmb1Seq
  | .rmb2 => rmb2Seq
  | .rmb3 => rmb3Seq
  | .rmb4 => rmb4Seq
  | .rmb5 => rmb5Seq
  | .rmb6 => rmb6Seq
  | .rmb7 => rmb7Seq
  | .smb0 => smb0Seq
  | .smb1 => smb1Seq
  | .smb2 => smb2Seq
  | .smb3 => smb3Seq
  | .smb4 => smb4Seq
  | .smb5 => smb5Seq
  | .smb6 => smb6Seq
  | .smb7 => smb7Seq
  | .bpl => bplSeq
  | .bmi => bmiSeq
  | .bvc => bvcSeq
  | .bvs => bvsSeq
  | .bcc => bccSeq
  | .bcs => bcsSeq
  | .bne => bneSeq
  | .beq => beqSeq
  | .bra => braSeq
  | .bbr0 => bbr0Seq
  | .bbr1 => bbr1Seq
  | .bbr2 => bbr2Seq
  | .bbr3 => bbr3Seq
  | .bbr4 => bbr4Seq
  | .bbr5 => bbr5Seq
  | .bbr6 => bbr6Seq
  | .bbr7 => bbr7Seq
  | .bbs0 => bbs0Seq
  | .bbs1 => bbs1Seq
  | .bbs2 => bbs2Seq
  | .bbs3 => bbs3Seq
  | .bbs4 => bbs4Seq
  | .bbs5 => bbs5Seq
  | .bbs6 => bbs6Seq
  | .bbs7 => bbs7Seq
  | .jmp m => jmpSeq m
  | .jsr => jsrSeq
  | .rts => rtsSeq
  | .rti => rtiSeq
  | .brk => brkSeq
  | .pha => phaSeq
  | .php => phpSeq
  | .phx => phxSeq
  | .phy => phySeq
  | .pla => plaSeq
  | .plp => plpSeq
  | .plx => plxSeq
  | .ply => plySeq
  | .clc => clcSeq
  | .sec => secSeq
  | .cli => cliSeq
  | .sei => seiSeq
  | .cld => cldSeq
  | .sed => sedSeq
  | .clv => clvSeq
  | .nop => nopSeq
  | .nopOne _ => nopSeq
  | .nopImm _ => nopImmSeq
  | .nopZp => nopZpSeq
  | .nopZpX _ => nopZpXSeq
  | .nopAbs _ => nopAbsSeq
  | .nop5C => nop5CSeq
  | .wai => waiSeq
  | .stp => stpSeq

end Sys2Proof.Machine
end

