-- ==== Sys2Proof/Machine/Loop.lean ====
section
/-! DEFINITION. The run loop (55_system R700 to R706): event dispatch, the sprite device's micro-step, and the
CPU's part of a step; and the loop step of the spec, one bus cycle at a time, that `step` groups. -/

namespace Sys2Proof.Machine

/-! ### Event dispatch (55_system R701) -/

/-- The handler of an event at its tick (55_system R701). -/
def handleEvent (e : Event) (s : State) : Res Yield :=
  match e.kind with
  | .none => .next (s, [])
  | .timer n =>
    if h : n < 12 then .next (fireAction ⟨n, h⟩ e.tick s) else .fault (.timerIndexOutOfRange n)
  | .audioSample => .next (audioSample s)
  | .displayDma => .next (displayDma e.tick s)
  | .resetRelease => .next ({ s with resetLine := false }, [])

/-- Step 1 of the loop step: one event popped and dispatched, what it yields pushed (55_system R700,
R701). -/
def dispatchEvent (s : State) : Res State :=
  let r := popEarliest s.tieCount s.queue
  (handleEvent r.1 { s with queue := r.2.1, tieCount := r.2.2 }).bind fun y => .next y.commit

/-! ### The sprite device (55_system R706) -/

/-- The bytes a micro-step writes, in order. -/
def writeBytes (ws : List (Addr × Byte)) (ram : List Host.Cell) : List Host.Cell :=
  ws.foldl (fun m w => ramWrite m w.1 w.2) ram

/-- Busy to idle: a deferred reset is applied by step 3 of R801, then a Sleeping CPU is woken (55_system R706,
70_reset R801). -/
def spriteDone (s : State) : State :=
  let s := if s.resetDeferred then assertReset { s with resetDeferred := false } else s
  if s.cpu.mode = .sleeping then { s with cpu := { s.cpu with mode := .running } } else s

/-- Step 2 of the loop step: one micro-step of the device (55_system R706). -/
def spriteMicroStep (s : State) : State :=
  let r := Config.spriteStep s.now s.suzy s.ram
  let s' := { s with suzy := r.1, ram := writeBytes r.2.1 s.ram, now := advanceTick s.now (1 + r.2.2) }
  if r.1.busy then s' else spriteDone s'

/-! ### The CPU (55_system R702) -/

/-- The instruction whose opcode was fetched. -/
def State.currentInstr (s : State) : Option Instr :=
  match s.cpu.opcode with
  | .instr op => some (decodeOpcode s.params op)
  | _ => none

/-- After the opcode fetch: the instruction runs on if the loop gives the CPU its turn; a one-cycle no-op
is complete at once (40_dispatch R242). A refused fetch has no instruction (55_system R703 step 1). -/
def afterFetch (s : State) : Res State :=
  if s.cpu.pendingReq.isSome then .next s
  else match s.currentInstr with
    | some i => if i.oneCycle || s.cpuTurn then exec i s else .next s
    | none => .next s

/-- The CPU at a boundary (40_dispatch R202, 55_system R702). -/
def stepBoundary (s : State) : Res State :=
  if s.cpu.pendingReq.isSome then .refused .requestOutstanding
  else match s.cpu.boundary s.params s.irqLine with
    | (.brk r, c) => .next { s with cpu := c, runExit := some (.brk r) }
    | (.asleep, c) => .next (idle { s with cpu := c }).settle
    | (.interrupt k, c) => runSeq (interruptSeqOf k) { s with cpu := c }
    | (.fetch, c) => (oneCycle fetchSeq { s with cpu := c }).bind afterFetch

/-- The CPU inside a sequence that another agent's turn suspended (40_dispatch R201). -/
def stepResume (s : State) : Res State :=
  match s.currentInstr with
  | some i => exec i s
  | none => runSeq (interruptSeqOf s.cpu.opcode) s

/-! ### The loop step, one bus cycle at a time (55_system R700) -/

/-- The CPU's one bus cycle of a loop step (55_system R702). -/
def loopCpu (s : State) : Res State :=
  if s.cpu.cycle = 0 then
    if s.cpu.pendingReq.isSome then .refused .requestOutstanding
    else match s.cpu.boundary s.params s.irqLine with
    | (.brk r, c) => .next { s with cpu := c, runExit := some (.brk r) }
    | (.asleep, c) => .next (idle { s with cpu := c }).settle
    | (.interrupt k, c) => oneCycle (interruptSeqOf k) { s with cpu := c }
    | (.fetch, c) => (oneCycle fetchSeq { s with cpu := c }).bind completeOne
  else
    match s.currentInstr with
    | some i => if i.oneCycle then exec i s else oneCycle (seqOf i) s
    | none => oneCycle (interruptSeqOf s.cpu.opcode) s
where
  /-- A one-cycle no-op is complete when its fetch is answered (40_dispatch R242). -/
  completeOne (s : State) : Res State :=
    if s.cpu.pendingReq.isSome then .next s
    else match s.currentInstr with
      | some i => if i.oneCycle then exec i s else .next s
      | none => .next s

/-- The loop step of the spec (55_system R700, R717), after the run has not ended. -/
def loopStep (s : State) : Res State :=
  if s.runExit.isSome then .refused .runExited
  else if s.eventDue then (dispatchEvent s).bind fun s => .next s.settle
  else if s.suzy.busy then .next (spriteMicroStep s).settle
  else loopCpu s

end Sys2Proof.Machine
end

