-- ==== Sys2Proof/Machine/Step.lean ====
section
/-! DEFINITION. The step of the machine: the spec's loop step (55_system R700), with the bus cycles the CPU has
in a row grouped (log 1); and the placing of an instruction where the step fetches. -/

namespace Sys2Proof.Machine

/-- One step: an event due is dispatched; else a busy sprite device makes a micro-step; else the CPU runs,
from a boundary or from where it was suspended, until its sequence ends or another agent's turn comes
(55_system R700, log 1). -/
def step (s : State) : Host.Outcome State Fault Refusal :=
  if s.runExit.isSome then .refused .runExited
  else if s.eventDue then (dispatchEvent s).bind fun s => .next s.settle
  else if s.suzy.busy then .next (spriteMicroStep s).settle
  else if s.cpu.cycle = 0 then stepBoundary s
  else stepResume s

/-- Stores a byte where a fetch of the address reads it (20_memory R101). -/
def State.plant (a : Addr) (v : Byte) (s : State) : State :=
  match route s.mapctl a with
  | .ram => { s with ram := ramWrite s.ram a v }
  | .rom => { s with rom := Memory.put s.rom (romOffset a) v }
  | _ => s

/-- The three bytes from the address on are plain RAM or ROM. -/
def State.plantable (s : State) (a : Addr) : Bool :=
  [a, a + 1, a + 2].all fun x => route s.mapctl x == .ram || route s.mapctl x == .rom

/-- The machine about to fetch at a boundary: nothing pending, due, armed or trapped, and the run going
on. Nothing is changed that would not stop the fetch. -/
def State.readyToFetch (s : State) : State :=
  { s with
    runExit := none
    queue := if s.eventDue then [] else s.queue
    suzy := { s.suzy with busy := false }
    irqLatch := if s.cpu.flags.i then s.irqLatch else 0
    traps := []
    cpu := { s.cpu with
      pendNmi := false
      pendReset := false
      cycle := 0
      pendingReq := none
      mode := .running
      brk := { s.cpu.brk with evalPending := false, fromTrap := false } } }

/-- The address `withFetchWord` stores at: PC, or 0x0200 when the bytes at PC are no plain memory. -/
def State.fetchAddr (s : State) : Addr := if s.plantable s.cpu.pc then s.cpu.pc else 0x0200

/-- The state with an instruction stored where the next step fetches it (log 10). -/
def State.withFetchWord (s : State) (nbits w : Nat) : State :=
  let a := s.fetchAddr
  let bs := wordBytes (tableWord nbits w)
  let s := s.readyToFetch
  let s := { s with cpu := { s.cpu with pc := a } }
  ((s.plant a (bs.getD 0 0)).plant (a + 1) (bs.getD 1 0)).plant (a + 2) (bs.getD 2 0)

end Sys2Proof.Machine
end

