-- ==== Sys2Proof/Safety.lean ====
section
/-! DEFINITION. The terms the claims are stated in: what a whole sequence leaves, the bus cycles the rules
give it, when it runs undisturbed, and the invariant of the machine. -/

namespace Sys2Proof.Machine

/-! ### Registers -/

/-- The registers a program sees (10_state R30 to R35). -/
structure Regs where
  a : Byte
  x : Byte
  y : Byte
  sp : Byte
  pc : Addr
  flags : Flags
  deriving DecidableEq, Repr

/-- The registers of the CPU. -/
def Cpu.regs (c : Cpu) : Regs := ⟨c.a, c.x, c.y, c.sp, c.pc, c.flags⟩

/-- `d` is `c` at the boundary that ends a sequence: registers and scratch may differ, the pending bits,
the run state, the armed break flags and the trace are those of `c` (10_state R37 to R41). -/
def Cpu.EndsAs (c d : Cpu) : Prop :=
  d = { c with
    a := d.a, x := d.x, y := d.y, sp := d.sp, pc := d.pc, flags := d.flags
    cycle := 0, ea := d.ea, ptr := d.ptr, data := d.data, crossed := d.crossed
    brk := { c.brk with evalPending := true } }

/-! ### Plain memory -/

/-- The address is RAM or boot ROM (20_memory R101): reading it has no side effect (R114). -/
def plain (mapctl : Byte) (a : Addr) : Bool := route mapctl a == .ram || route mapctl a == .rom

/-- The byte a read of a plain address returns (20_memory R104, R106). -/
def State.byteAt (s : State) (a : Addr) : Byte :=
  if route s.mapctl a = .ram then ramRead s.ram a else romRead s.rom a

/-- RAM after a write of `v` at a plain address: a write to the boot ROM does what the policy says
(20_memory R105, R106). -/
def State.storedRam (s : State) (a : Addr) (v : Byte) : List Host.Cell :=
  if route s.mapctl a = .ram ∨ s.params.romWritePolicy = .writeRam then ramWrite s.ram a v else s.ram

/-- The state with `v` written at a plain address, and nothing else changed. -/
def State.stored (s : State) (a : Addr) (v : Byte) : State := { s with ram := s.storedRam a v }

/-! ### Bus cycles of a sequence -/

/-- The tick and previous bus cycle after one more cycle (55_system R703 step 4). -/
def tickStep (mapctl : Byte) (x : Tick × Option (BusKind × Addr)) (r : BusRecord) :
    Tick × Option (BusKind × Addr) :=
  (completion (route mapctl r.addr) r.kind r.addr x.2 x.1, some (r.kind, r.addr))

/-- The tick and previous bus cycle after a list of bus cycles. -/
def State.afterCycles (s : State) (tr : List BusRecord) : Tick × Option (BusKind × Addr) :=
  tr.foldl (tickStep s.mapctl) (s.now, s.prevBus)

/-- No trap is registered on the cycle (55_system R708). -/
def untrapped (traps : List Trap) (r : BusRecord) : Bool :=
  traps.all fun x => !(x.onKind r.kind && x.addrs.contains r.addr)

/-- The bus cycles `tr` run as the CPU's alone: the run goes on, every one is at a plain address with no
trap on it, no other agent's turn comes before they end, and no request is outstanding. -/
structure Ready (s : State) (tr : List BusRecord) : Prop where
  running : s.runExit = none
  idle : s.suzy.busy = false
  unsampled : ¬(s.sampling.active = true ∧ s.sampling.idx = s.sampling.buf.length)
  answered : s.cpu.pendingReq = none
  isPlain : ∀ r ∈ tr, plain s.mapctl r.addr = true
  isUntrapped : ∀ r ∈ tr, untrapped s.traps r = true
  undisturbed : ∀ e, peekEarliestTick s.queue = some e → (s.afterCycles tr).1 < e

/-- `t` is `s` after the bus cycles `tr` of a whole sequence: time, the bus record, the CPU and RAM may
differ, and the CPU is at the boundary that ends the sequence. -/
structure Completed (s : State) (tr : List BusRecord) (t : State) : Prop where
  frame : t = { s with cpu := t.cpu, ram := t.ram, now := t.now, prevBus := t.prevBus, busLog := t.busLog }
  time : (t.now, t.prevBus) = s.afterCycles tr
  cycles : t.busLog = s.busLog ++ tr
  ended : s.cpu.EndsAs t.cpu

/-- Every byte of memory but the one at `a` reads as before, and that one reads `v` if it is RAM. -/
def StoresOnly (s t : State) (a : Addr) (v : Byte) : Prop :=
  t.ram = s.storedRam a v ∧ (∀ b, b ≠ a → ramRead t.ram b = ramRead s.ram b) ∧
    (route s.mapctl a = .ram → ramRead t.ram a = v)

/-! ### The bus cycles the rules of 40_dispatch give -/

/-- An operand fetch at a plain address. -/
def State.opnd (s : State) (a : Addr) : BusRecord := ⟨.fetchOperand, a, s.byteAt a⟩

/-- A read of a plain address. -/
def State.rd (s : State) (a : Addr) : BusRecord := ⟨.read, a, s.byteAt a⟩

/-- A dummy read of a plain address. -/
def State.dummy (s : State) (a : Addr) : BusRecord := ⟨.discard, a, s.byteAt a⟩

/-- The first operand byte of the instruction whose opcode was just fetched. -/
def State.b1 (s : State) : Byte := s.byteAt s.cpu.pc

/-- The second operand byte of the instruction whose opcode was just fetched. -/
def State.b2 (s : State) : Byte := s.byteAt (s.cpu.pc + 1)

/-- The address of the zero-page pointer of a mode (30_encoding R167 to R169). -/
def State.pointer (s : State) (m : Mode) : Addr :=
  match m with
  | .indX => zpIndexed s.b1 s.cpu.x
  | _ => zpAddr s.b1

/-- The address a zero-page pointer holds (30_encoding R167 to R169). -/
def State.pointed (s : State) (p : Addr) : Addr := word (s.byteAt (zpNext p)) (s.byteAt p)

/-- The address an index is added to (30_encoding R165, R166, R168). -/
def State.indexBase (s : State) (m : Mode) : Addr :=
  match m with
  | .indY => s.pointed (s.pointer m)
  | _ => word s.b2 s.b1

/-- The effective address of a mode (30_encoding R161 to R169). -/
def State.effAddr (s : State) (m : Mode) : Addr :=
  match m with
  | .zp => zpAddr s.b1
  | .zpX | .zpY => zpIndexed s.b1 (modeIndex m s.cpu)
  | .abs => word s.b2 s.b1
  | .absX | .absY | .indY => indexed (s.indexBase m) (modeIndex m s.cpu)
  | .indX | .ind => s.pointed (s.pointer m)
  | _ => s.cpu.pc

/-- The index of a mode crosses a page (30_encoding R174). -/
def State.crosses (s : State) (m : Mode) : Bool := pageCrossed (s.indexBase m) (s.effAddr m)

/-- The bus cycles that form an effective address (40_dispatch R212 to R228); `always` says that an
indexed mode takes its dummy cycle crossed or not. -/
def State.addrTrace (s : State) (m : Mode) (always : Bool) : List BusRecord :=
  let pc := s.cpu.pc
  let p := s.pointer m
  match m with
  | .zp => [s.opnd pc]
  | .zpX | .zpY => [s.opnd pc, s.dummy pc]
  | .abs => [s.opnd pc, s.opnd (pc + 1)]
  | .absX | .absY =>
    [s.opnd pc, s.opnd (pc + 1)] ++ (if always || s.crosses m then [s.dummy (pc + 1)] else [])
  | .indX => [s.opnd pc, s.dummy pc, s.rd p, s.rd (zpNext p)]
  | .indY =>
    [s.opnd pc, s.rd p, s.rd (zpNext p)] ++ (if always || s.crosses m then [s.dummy (zpNext p)] else [])
  | .ind => [s.opnd pc, s.rd p, s.rd (zpNext p)]
  | _ => []

/-- The address of the operand byte of a read-class instruction. -/
def State.operandAddr (s : State) (m : Mode) : Addr :=
  match m with
  | .imm => s.cpu.pc
  | _ => s.effAddr m

/-- The operand byte of a read-class instruction (30_encoding R160 to R169). -/
def State.operand (s : State) (m : Mode) : Byte := s.byteAt (s.operandAddr m)

/-- The bus cycles of a read-class instruction; `extra` for the decimal extra cycle (40_dispatch R211,
R212, R215, R218, R221, R225, R226, R228, R229). -/
def State.readTrace (s : State) (m : Mode) (extra : Bool) : List BusRecord :=
  (match m with
    | .imm => [s.opnd s.cpu.pc]
    | m => s.addrTrace m false ++ [s.rd (s.effAddr m)]) ++
  (if extra then [s.dummy (s.operandAddr m)] else [])

/-- The bus cycles of a write-class instruction (40_dispatch R213, R216, R219, R222, R225, R227, R228). -/
def State.writeTrace (s : State) (m : Mode) (v : Byte) : List BusRecord :=
  s.addrTrace m true ++ [⟨.write, s.effAddr m, v⟩]

/-- The bus cycles of a read-modify-write instruction that writes `v` (40_dispatch R214, R217, R220, R223,
R224). -/
def State.rmwTrace (s : State) (m : Mode) (always : Bool) (v : Byte) : List BusRecord :=
  s.addrTrace m always ++ [s.rd (s.effAddr m), s.dummy (s.effAddr m), ⟨.write, s.effAddr m, v⟩]

/-- The bus cycles of a relative branch (40_dispatch R230). -/
def State.branchTrace (s : State) (taken : Bool) : List BusRecord :=
  let next := s.cpu.pc + 1
  s.opnd s.cpu.pc ::
    (if taken then
      s.dummy next :: (if pageCrossed next (branchTarget next s.b1) then [s.dummy next] else [])
    else [])

/-- The bus cycles of a bit branch (40_dispatch R231). -/
def State.bitBranchTrace (s : State) (taken : Bool) : List BusRecord :=
  let next := s.cpu.pc + 2
  [s.opnd s.cpu.pc, s.rd (zpAddr s.b1), s.dummy (zpAddr s.b1), s.opnd (s.cpu.pc + 1)] ++
    (if taken then
      s.dummy next :: (if pageCrossed next (branchTarget next s.b2) then [s.dummy next] else [])
    else [])

/-- The state after the pushes of PC (10_state R33). -/
def State.pushedPc (s : State) (pc : Addr) : State :=
  (s.stored (stackAddr s.cpu.sp) (hiByte pc)).stored (stackAddr (s.cpu.sp - 1)) (loByte pc)

/-- The state after the pushes of PC and the status byte (60_exceptions R751). -/
def State.pushedAll (s : State) (pc : Addr) (b : Bool) : State :=
  (s.pushedPc pc).stored (stackAddr (s.cpu.sp - 2)) (s.cpu.flags.pack b)

/-- The two pushes of PC (40_dispatch R235, 60_exceptions R751). -/
def State.pushPcTrace (s : State) (pc : Addr) : List BusRecord :=
  [⟨.write, stackAddr s.cpu.sp, hiByte pc⟩, ⟨.write, stackAddr (s.cpu.sp - 1), loByte pc⟩]

/-- The bus cycles of JSR (40_dispatch R235): the high operand byte is read after the pushes. -/
def State.jsrTrace (s : State) : List BusRecord :=
  [s.opnd s.cpu.pc, s.dummy (stackAddr s.cpu.sp)] ++ s.pushPcTrace (s.cpu.pc + 1) ++
    [(s.pushedPc (s.cpu.pc + 1)).opnd (s.cpu.pc + 1)]

/-- The bus cycles of pushing PC and the status byte and reading a vector (60_exceptions R751 c3 to c7,
40_dispatch R238 c3 to c7). -/
def State.entryTrace (s : State) (pc : Addr) (b : Bool) (vector : Addr) : List BusRecord :=
  s.pushPcTrace pc ++ [⟨.write, stackAddr (s.cpu.sp - 2), s.cpu.flags.pack b⟩,
    (s.pushedAll pc b).rd vector, (s.pushedAll pc b).rd (vector + 1)]

/-- The bus cycles of RESET: three dummy stack reads stand where the pushes of an IRQ do (60_exceptions
R752). -/
def State.resetTrace (s : State) : List BusRecord :=
  [s.dummy s.cpu.pc, s.dummy s.cpu.pc, s.dummy (stackAddr s.cpu.sp), s.dummy (stackAddr (s.cpu.sp - 1)),
    s.dummy (stackAddr (s.cpu.sp - 2)), s.rd resetVector, s.rd (resetVector + 1)]

/-- The address a vector holds when it is read (60_exceptions R750). -/
def State.vectorAt (s : State) (pc : Addr) (b : Bool) (vector : Addr) : Addr :=
  word ((s.pushedAll pc b).byteAt (vector + 1)) ((s.pushedAll pc b).byteAt vector)

/-- The pointer of an indirect JMP (30_encoding R171, R172). -/
def State.jmpPointer (s : State) (m : Mode) : Addr := indexed (word s.b2 s.b1) (modeIndex m s.cpu)

/-- The bus cycles of an indirect JMP (40_dispatch R233, R234). -/
def State.jmpIndTrace (s : State) (m : Mode) : List BusRecord :=
  [s.opnd s.cpu.pc, s.opnd (s.cpu.pc + 1), s.dummy (s.cpu.pc + 1), s.rd (s.jmpPointer m),
    s.rd (s.jmpPointer m + 1)]

/-- The `n`-th byte that pulls take from the stack, counted from 1 (10_state R33). -/
def State.pulled (s : State) (n : Byte) : Byte := s.byteAt (stackAddr (s.cpu.sp + n))

/-- The word whose low byte is the `n`-th pulled (10_state R33, 20_memory R111). -/
def State.pulledWord (s : State) (n : Byte) : Addr := word (s.pulled (n + 1)) (s.pulled n)

/-- The bus cycles of RTS (40_dispatch R236). -/
def State.rtsTrace (s : State) : List BusRecord :=
  [s.dummy s.cpu.pc, s.dummy (stackAddr s.cpu.sp), s.rd (stackAddr (s.cpu.sp + 1)),
    s.rd (stackAddr (s.cpu.sp + 2)), s.dummy (s.pulledWord 1)]

/-- The bus cycles of RTI (40_dispatch R237). -/
def State.rtiTrace (s : State) : List BusRecord :=
  [s.dummy s.cpu.pc, s.dummy (stackAddr s.cpu.sp), s.rd (stackAddr (s.cpu.sp + 1)),
    s.rd (stackAddr (s.cpu.sp + 2)), s.rd (stackAddr (s.cpu.sp + 3))]

/-- The bus cycles of a push (40_dispatch R239). -/
def State.pushTrace (s : State) (v : Byte) : List BusRecord :=
  [s.dummy s.cpu.pc, ⟨.write, stackAddr s.cpu.sp, v⟩]

/-- The bus cycles of a pull (40_dispatch R240). -/
def State.pullTrace (s : State) : List BusRecord :=
  [s.dummy s.cpu.pc, s.dummy (stackAddr s.cpu.sp), s.rd (stackAddr (s.cpu.sp + 1))]

/-- The bus cycles of opcode 0x5C (40_dispatch R244). -/
def State.nop5CTrace (s : State) : List BusRecord :=
  [s.opnd s.cpu.pc, s.opnd (s.cpu.pc + 1)] ++ List.replicate 5 (s.dummy (word 0xFF s.b1))

/-- PC after the operand bytes of a mode (30_encoding R151). -/
def State.pcAfter (s : State) (m : Mode) : Addr := s.cpu.pc + BitVec.ofNat 16 m.operandCount

/-! ### What an instruction does when it runs undisturbed -/

/-- `i` runs from `s` to its end by the bus cycles `tr`: the registers are then `r`, no byte of memory has
changed, and nothing else has but what `Completed` says. -/
def Completes (i : Instr) (s : State) (tr : List BusRecord) (r : Regs) : Prop :=
  ∃ t, exec i s = .next t ∧ Completed s tr t ∧ t.cpu.regs = r ∧ t.ram = s.ram

/-- `i` runs from `s` to its end by the bus cycles `tr`: the registers are then `r`, the byte `v` has been
stored at `a` and no other byte of memory has changed, and nothing else has but what `Completed` says. -/
def CompletesStoring (i : Instr) (s : State) (tr : List BusRecord) (r : Regs) (a : Addr) (v : Byte) : Prop :=
  ∃ t, exec i s = .next t ∧ Completed s tr t ∧ t.cpu.regs = r ∧ StoresOnly s t a v

/-! ### The boundary -/

/-- At the boundary of `s` nothing stands before an opcode fetch: no break fires, the CPU is awake or
wakes, and no interrupt is taken (40_dispatch R202). -/
structure AtFetch (s : State) : Prop where
  boundary : s.cpu.cycle = 0
  unbroken : s.cpu.breakFound s.params = none
  awake : s.cpu.wakes s.irqLine = true
  noReset : s.cpu.pendReset = false
  noNmi : s.cpu.pendNmi = false
  masked : s.irqLine = true → s.cpu.flags.i = true

/-- The CPU past the break evaluation and the wake check of a boundary, Running (40_dispatch R202 steps 1
and 2). -/
def State.awakened (s : State) : State :=
  { s with cpu := { s.cpu with brk := s.cpu.breakEvaluated s.params, mode := .running } }

/-- The opcode fetch at a plain PC. -/
def State.opcodeFetch (s : State) : BusRecord := ⟨.fetchOpcode, s.cpu.pc, s.byteAt s.cpu.pc⟩

/-- `s` after the opcode fetch, PC at a plain address (40_dispatch R202 step 4, R203, 55_system R703). -/
def State.fetched (s : State) : State :=
  { s.awakened with
    cpu := s.awakened.cpu.answerOpcode s.params (s.byteAt s.cpu.pc)
    now := (s.afterCycles [s.opcodeFetch]).1
    prevBus := (s.afterCycles [s.opcodeFetch]).2
    busLog := s.busLog ++ [s.opcodeFetch] }

/-- At the boundary of `s` an NMI, or else an IRQ, is taken: no break fires, the CPU is not Stopped, no RESET
is pending, and the NMI is pending, or it is not and the IRQ line is high with `I = 0` (60_exceptions R754,
R772). -/
structure TakesInterrupt (nmi : Bool) (s : State) : Prop where
  boundary : s.cpu.cycle = 0
  unbroken : s.cpu.breakFound s.params = none
  awake : s.cpu.mode ≠ .stopped
  noReset : s.cpu.pendReset = false
  chosen : if nmi then s.cpu.pendNmi = true
    else s.cpu.pendNmi = false ∧ s.irqLine = true ∧ s.cpu.flags.i = false

/-- The bus cycles of an NMI or an IRQ (60_exceptions R751). -/
def State.interruptTrace (s : State) (vector : Addr) : List BusRecord :=
  s.dummy s.cpu.pc :: s.dummy s.cpu.pc :: s.entryTrace s.cpu.pc false vector

/-- `n` loop steps of the spec in a row (55_system R700). -/
def loopRun : Nat → State → Res State
  | 0, s => .next s
  | n + 1, s => (loopStep s).bind (loopRun n)

/-! ### The invariant -/

/-- A timer unit's plan agrees with its count (51_timers R522, R523). -/
def TimerUnit.planned (p : Params) (u : TimerUnit) : Bool :=
  if u.selfClocked p then u.expectedFireTick == u.fireTick u.baseTick else u.expectedFireTick == 0

/-- A self-clocked unit has its fire in the queue (51_timers R523, 50_event_queue R510); a plan that the 64 bits
wrap to 0 is no plan (R531). -/
def TimerUnit.scheduled (p : Params) (q : List Event) (n : Fin 12) (u : TimerUnit) : Bool :=
  !u.selfClocked p || u.expectedFireTick == 0 || q.contains ⟨.timer n.val, u.expectedFireTick⟩

/-- RAM and ROM are in canonical form (log 4, log 5). -/
def State.memoryInv (s : State) : Prop := Memory.wf 65536 s.ram = true ∧ Memory.wf 512 s.rom = true

/-- Every unit's plan agrees with its count and is in the queue, and units 8 to 11 have no interrupt
(10_state R70, 51_timers R522, R523). -/
def State.timerInv (s : State) : Prop :=
  ∀ n : Fin 12, (s.timer n).planned s.params = true ∧ (s.timer n).scheduled s.params s.queue n = true ∧
    (8 ≤ n.val → (s.timer n).interruptEnabled = false)

/-- The transmitter is never busy, and an active serial condition holds latch bit 4 (54_controller_chip
R661, R654). -/
def State.latchInv (s : State) : Prop :=
  s.serial.txBusy = false ∧ (s.serial.irqActive = true → s.irqLatch.getLsbD 4 = true)

/-- The taps 6, 8 and 9 that no channel has are 0 (52_audio R573). -/
def State.audioInv (s : State) : Prop :=
  ∀ n : Fin 4, (s.audio.get n).tapMask &&& 0x340 = 0

/-- The row counter is in range, and no more bytes are emitted than were fetched (53_display R602, 10_state
R72). -/
def State.displayInv (s : State) : Prop :=
  s.display.row ≤ 65535 ∧ s.display.emitted ≤ s.display.lineBuf.length

/-- The machine's invariant. -/
structure State.Inv (s : State) : Prop where
  memory : s.memoryInv
  queue : queueWf s.queue = true
  timer : s.timerInv
  latch : s.latchInv
  audio : s.audioInv
  display : s.displayInv
  samples : s.sampling.idx ≤ s.sampling.buf.length
  answered : s.cpu.pendingReq = none ∨ ∃ a, s.runExit = some (.refused a)

end Sys2Proof.Machine
end

