-- ==== Sys2Proof/Certificates/Slice0/Obligations.lean ====
section
/-! DEFINITION. The statements for the provers, from the numbered rules of spec/. -/

open Sys2Proof Sys2Proof.Machine

/-! ### Encoding, and the step from a boundary -/

/-- Every well-formed instruction is what its bytes decode to, whatever its operand bytes and whatever
follows them (30_encoding R150, R151, R180 to R183). -/
def Obligations.DecodeOfEncode : Prop :=
  ∀ (p : Params) (i : Instr) (b1 b2 : Byte) (rest : List Byte), i.wellFormed p = true →
    decode p (encode i b1 b2 ++ rest) = .ok ⟨i, [b1, b2].take i.operandCount, rest⟩

/-- Every one of the 256 bytes is the opcode of a well-formed instruction (30_encoding R180, R182, R183). -/
def Obligations.EveryByteIsAnOpcode : Prop :=
  ∀ (p : Params) (op : Byte), (decodeOpcode p op).wellFormed p = true ∧ opcodeOf (decodeOpcode p op) = op

/-- Words written out from the spec's encodings decode to their instructions (41_load_store R300, 42_alu
R340, 43_rmw R382, 44_control R411, R415, R418, 45_stack R434, R453). -/
def Obligations.SampleWordsDecode : Prop :=
  ∀ p : Params,
    decodeOpcode p 0b10101001 = .lda .imm ∧ decodeOpcode p 0b01110001 = .adc .indY ∧
    decodeOpcode p 0b00100000 = .jsr ∧ decodeOpcode p 0b00000000 = .brk ∧
    decodeOpcode p 0b01101000 = .pla ∧
    (p.rockwellBitops = true → decodeOpcode p 0b00110111 = .rmb3 ∧ decodeOpcode p 0b11111111 = .bbs7) ∧
    (p.wdcWaiStp = true → decodeOpcode p 0b11011011 = .stp)

/-- At a boundary before a fetch from plain memory, the step is `exec` of the instruction that the bytes
at PC decode to, from the state after the fetch; where another agent's turn comes first, the step ends
with that state. The fetch of an undefined opcode, and of no other, appends its hiccup record (40_dispatch R202,
R203, 55_system R700, 10_state R41, 45_stack_flags_misc R446). -/
def Obligations.StepRunsDecodedInstruction : Prop :=
  ∀ (s : State) (d : Decoded), AtFetch s → Ready s [] → plain s.mapctl s.cpu.pc = true →
    untrapped s.traps s.opcodeFetch = true →
    decode s.params [s.byteAt s.cpu.pc, s.byteAt (s.cpu.pc + 1), s.byteAt (s.cpu.pc + 2)] = .ok d →
    d.instr.wellFormed s.params = true ∧
      s.fetched.cpu.trace = s.cpu.trace ++ (match d.instr with
        | .nopOne _ | .nopImm _ | .nopZp | .nopZpX _ | .nopAbs _ | .nop5C => [⟨s.cpu.pc, s.byteAt s.cpu.pc⟩]
        | _ => []) ∧
      step s = if d.instr.oneCycle || s.fetched.cpuTurn then exec d.instr s.fetched else .next s.fetched

/-- A step inside an instruction goes on with it where it was suspended (40_dispatch R201, 55_system R700,
R702). -/
def Obligations.StepResumesInstruction : Prop :=
  ∀ (s : State) (op : Byte), Ready s [] → s.cpu.cycle ≠ 0 → s.cpu.opcode = .instr op →
    step s = exec (decodeOpcode s.params op) s

/-! ### Loads, stores, transfers -/

/-- LDA, LDX and LDY: the operand byte goes to the register, N and Z follow it, PC passes the operand
bytes, and nothing else changes (41_load_store R300, R301, R302). -/
def Obligations.LoadsComplete : Prop :=
  ∀ (m : Mode) (s : State), s.cpu.cycle = 1 → Ready s (s.readTrace m false) →
    let v := s.operand m
    let r := { s.cpu.regs with
      pc := s.pcAfter m, flags := { s.cpu.flags with n := v.msb, z := decide (v = 0) } }
    ((Instr.lda m).wf = true → Completes (.lda m) s (s.readTrace m false) { r with a := v }) ∧
    ((Instr.ldx m).wf = true → Completes (.ldx m) s (s.readTrace m false) { r with x := v }) ∧
    ((Instr.ldy m).wf = true → Completes (.ldy m) s (s.readTrace m false) { r with y := v })

/-- STA, STX, STY and STZ store their byte at the effective address, change no register but PC and no
flag, and no other byte of memory (41_load_store R303 to R306). -/
def Obligations.StoresComplete : Prop :=
  ∀ (m : Mode) (s : State), s.cpu.cycle = 1 →
    let r := { s.cpu.regs with pc := s.pcAfter m }
    let ea := s.effAddr m
    ((Instr.sta m).wf = true → Ready s (s.writeTrace m s.cpu.a) →
      CompletesStoring (.sta m) s (s.writeTrace m s.cpu.a) r ea s.cpu.a) ∧
    ((Instr.stx m).wf = true → Ready s (s.writeTrace m s.cpu.x) →
      CompletesStoring (.stx m) s (s.writeTrace m s.cpu.x) r ea s.cpu.x) ∧
    ((Instr.sty m).wf = true → Ready s (s.writeTrace m s.cpu.y) →
      CompletesStoring (.sty m) s (s.writeTrace m s.cpu.y) r ea s.cpu.y) ∧
    ((Instr.stz m).wf = true → Ready s (s.writeTrace m 0) →
      CompletesStoring (.stz m) s (s.writeTrace m 0) r ea 0)

/-- TAX, TAY, TXA, TYA, TSX and TXS: opcode, cycle, register and flags; TXS alone sets no flag
(41_load_store R307 to R312, 40_dispatch R210). -/
def Obligations.TransfersComplete : Prop :=
  ∀ s : State, s.cpu.cycle = 1 → Ready s [s.dummy s.cpu.pc] →
    let r := s.cpu.regs
    let f (v : Byte) : Flags := { r.flags with n := v.msb, z := decide (v = 0) }
    let tr := [s.dummy s.cpu.pc]
    Completes .tax s tr { r with x := r.a, flags := f r.a } ∧
    Completes .tay s tr { r with y := r.a, flags := f r.a } ∧
    Completes .txa s tr { r with a := r.x, flags := f r.x } ∧
    Completes .tya s tr { r with a := r.y, flags := f r.y } ∧
    Completes .tsx s tr { r with x := r.sp, flags := f r.sp } ∧
    Completes .txs s tr { r with sp := r.x }

/-! ### Arithmetic, logic, compare, bit test -/

/-- ADC and SBC: A and the flags are those of the sum or difference, with one more cycle in decimal mode
where the parameter says so (42_alu R340 to R343, 40_dispatch R229). -/
def Obligations.AddAndSubtractComplete : Prop :=
  ∀ (m : Mode) (s : State), (Instr.adc m).wf = true → s.cpu.cycle = 1 →
    let tr := s.readTrace m (s.params.decimalExtraCycle && s.cpu.flags.d)
    let x := adc s.cpu.flags s.cpu.a (s.operand m)
    let y := sbc s.cpu.flags s.cpu.a (s.operand m)
    Ready s tr →
      Completes (.adc m) s tr { s.cpu.regs with pc := s.pcAfter m, a := x.1, flags := x.2 } ∧
      Completes (.sbc m) s tr { s.cpu.regs with pc := s.pcAfter m, a := y.1, flags := y.2 }

/-- Binary ADC is addition: result and carry together are the sum, V says that the signed sum does not
fit, N and Z follow the result, D and I stay (42_alu R340). -/
def Obligations.BinaryAddIsAddition : Prop :=
  ∀ (f : Flags) (a v : Byte), f.d = false →
    let r := adc f a v
    r.1.toNat + 256 * r.2.c.toNat = a.toNat + v.toNat + f.c.toNat ∧
    (r.2.v = true ↔ r.1.toInt ≠ a.toInt + v.toInt + f.c.toNat) ∧
    r.2.n = r.1.msb ∧ (r.2.z = true ↔ r.1 = 0) ∧ r.2.d = f.d ∧ r.2.i = f.i

/-- Binary SBC is subtraction with borrow `1 - C`: C is the absence of a borrow, V says that the signed
difference does not fit, N and Z follow the result, D and I stay (42_alu R342). -/
def Obligations.BinarySubtractIsSubtraction : Prop :=
  ∀ (f : Flags) (a v : Byte), f.d = false →
    let r := sbc f a v
    let b : Int := 1 - f.c.toNat
    (r.1.toNat : Int) = (a.toNat - v.toNat - b) % 256 ∧
    (r.2.c = true ↔ 0 ≤ (a.toNat : Int) - v.toNat - b) ∧
    (r.2.v = true ↔ r.1.toInt ≠ a.toInt - v.toInt - b) ∧
    r.2.n = r.1.msb ∧ (r.2.z = true ↔ r.1 = 0) ∧ r.2.d = f.d ∧ r.2.i = f.i

/-- Decimal ADC and SBC, of any two bytes as the 65C02 does it, digit by digit, D and I kept, N and Z those
of the decimal result, ADC's V that of the signed sum with the adjusted low digit, SBC's C and V as the
binary SBC sets them; and of two valid BCD bytes that is addition and subtraction of two-digit numbers
modulo 100, ADC's C the carry past 99 (42_alu R341, R343). -/
def Obligations.DecimalArithmeticOnBcd : Prop :=
  ∀ (f : Flags) (ah al vh vl : Nat), f.d = true → ah < 16 → al < 16 → vh < 16 → vl < 16 →
    let a := BitVec.ofNat 8 (16 * ah + al)
    let v := BitVec.ofNat 8 (16 * vh + vl)
    let c := f.c.toNat
    let kept (r : Byte × Flags) : Prop :=
      r.2.n = r.1.msb ∧ (r.2.z = true ↔ r.1 = 0) ∧ r.2.d = true ∧ r.2.i = f.i
    (let r := adc f a v
     let lo := if 10 ≤ al + vl + c then (al + vl + c + 6) % 16 + 16 else al + vl + c
     let s := 16 * ah + 16 * vh + lo
     let s' := if 160 ≤ s then s + 96 else s
     let high (h : Nat) : Int := if h < 8 then 16 * h else 16 * h - 256
     let ss : Int := high ah + high vh + lo
     let sum := (10 * ah + al) + (10 * vh + vl) + c
     r.1.toNat = s' % 256 ∧ (r.2.c = true ↔ 256 ≤ s') ∧ (r.2.v = true ↔ ss < -128 ∨ 127 < ss) ∧ kept r ∧
       (ah < 10 → al < 10 → vh < 10 → vl < 10 →
         r.1.toNat = 16 * (sum % 100 / 10) + sum % 10 ∧ (r.2.c = true ↔ 100 ≤ sum))) ∧
    (let r := sbc f a v
     let b := sbc { f with d := false } a v
     let lo : Int := al - vl + c - 1
     let s : Int := (16 * ah + al) - (16 * vh + vl) + c - 1
     let s' := if s < 0 then s - 96 else s
     let s'' := if lo < 0 then s' - 6 else s'
     let diff : Int := (10 * ah + al) - (10 * vh + vl) - (1 - c)
     (r.1.toNat : Int) = s'' % 256 ∧ r.2.c = b.2.c ∧ r.2.v = b.2.v ∧ kept r ∧
       (ah < 10 → al < 10 → vh < 10 → vl < 10 →
         (r.1.toNat : Int) = 16 * (diff % 100 / 10) + diff % 100 % 10))

/-- AND, ORA and EOR: A, N and Z (42_alu R344, R345, R346). -/
def Obligations.LogicCompletes : Prop :=
  ∀ (m : Mode) (s : State), (Instr.and m).wf = true → s.cpu.cycle = 1 → Ready s (s.readTrace m false) →
    let tr := s.readTrace m false
    let r (v : Byte) : Regs := { s.cpu.regs with
      pc := s.pcAfter m, a := v, flags := { s.cpu.flags with n := v.msb, z := decide (v = 0) } }
    Completes (.and m) s tr (r (s.cpu.a &&& s.operand m)) ∧
    Completes (.ora m) s tr (r (s.cpu.a ||| s.operand m)) ∧
    Completes (.eor m) s tr (r (s.cpu.a ^^^ s.operand m))

/-- CMP, CPX and CPY: the flags of the unsigned comparison and nothing else (42_alu R347, R348, R349). -/
def Obligations.ComparesComplete : Prop :=
  ∀ (m : Mode) (s : State), s.cpu.cycle = 1 → Ready s (s.readTrace m false) →
    let tr := s.readTrace m false
    let v := s.operand m
    let r (x : Byte) : Regs := { s.cpu.regs with
      pc := s.pcAfter m
      flags := { s.cpu.flags with
        n := (x - v).msb, z := decide (x = v), c := decide (v.toNat ≤ x.toNat) } }
    ((Instr.cmp m).wf = true → Completes (.cmp m) s tr (r s.cpu.a)) ∧
    ((Instr.cpx m).wf = true → Completes (.cpx m) s tr (r s.cpu.x)) ∧
    ((Instr.cpy m).wf = true → Completes (.cpy m) s tr (r s.cpu.y))

/-- BIT: Z from A and the operand; N and V from the operand's bits 7 and 6, but for the immediate form,
which leaves them (42_alu R350). -/
def Obligations.BitTestCompletes : Prop :=
  ∀ (m : Mode) (s : State), (Instr.bit m).wf = true → s.cpu.cycle = 1 → Ready s (s.readTrace m false) →
    let v := s.operand m
    let f := { s.cpu.flags with z := decide (s.cpu.a &&& v = 0) }
    Completes (.bit m) s (s.readTrace m false) { s.cpu.regs with
      pc := s.pcAfter m
      flags := if m = .imm then f else { f with n := v.getLsbD 7, v := v.getLsbD 6 } }

/-! ### Shifts, increments, bit set and reset -/

/-- ASL, LSR, ROL, ROR, INC and DEC of the accumulator, and INX, INY, DEX and DEY: the register and the flags
(43_rmw R370 to R379, 40_dispatch R210). -/
def Obligations.RegisterFormsComplete : Prop :=
  ∀ s : State, s.cpu.cycle = 1 → Ready s [s.dummy s.cpu.pc] →
    let r := s.cpu.regs
    let f := r.flags
    let nz (v : Byte) : Flags := { f with n := v.msb, z := decide (v = 0) }
    let acc (x : Byte × Flags) : Regs := { r with a := x.1, flags := x.2 }
    let tr := [s.dummy s.cpu.pc]
    (Completes (.asl .acc) s tr (acc (asl f r.a)) ∧ Completes (.lsr .acc) s tr (acc (lsr f r.a)) ∧
      Completes (.rol .acc) s tr (acc (rol f r.a)) ∧ Completes (.ror .acc) s tr (acc (ror f r.a)) ∧
      Completes (.inc .acc) s tr { r with a := r.a + 1, flags := nz (r.a + 1) } ∧
      Completes (.dec .acc) s tr { r with a := r.a - 1, flags := nz (r.a - 1) }) ∧
    (Completes .inx s tr { r with x := r.x + 1, flags := nz (r.x + 1) } ∧
      Completes .iny s tr { r with y := r.y + 1, flags := nz (r.y + 1) } ∧
      Completes .dex s tr { r with x := r.x - 1, flags := nz (r.x - 1) } ∧
      Completes .dey s tr { r with y := r.y - 1, flags := nz (r.y - 1) })

/-- ASL, LSR, ROL, ROR, INC and DEC of memory: the byte written back and the flags; INC and DEC absolute,X
take their dummy cycle crossed or not (43_rmw R370 to R375, 40_dispatch R214, R217, R220, R223, R224). -/
def Obligations.MemoryShiftsComplete : Prop :=
  ∀ (m : Mode) (s : State), (Instr.asl m).wf = true → m ≠ .acc → s.cpu.cycle = 1 →
    let run (i : Instr) (always : Bool) (x : Byte × Flags) : Prop :=
      Ready s (s.rmwTrace m always x.1) →
        CompletesStoring i s (s.rmwTrace m always x.1)
          { s.cpu.regs with pc := s.pcAfter m, flags := x.2 } (s.effAddr m) x.1
    let f := s.cpu.flags
    let v := s.byteAt (s.effAddr m)
    run (.asl m) false (asl f v) ∧ run (.lsr m) false (lsr f v) ∧ run (.rol m) false (rol f v) ∧
    run (.ror m) false (ror f v) ∧ run (.inc m) true (incByte f v) ∧ run (.dec m) true (decByte f v)

/-- The shifts are doubling and halving with the carry, and increment and decrement are modulo 256; V, D
and I stay, and increment and decrement leave C (43_rmw R370 to R375). -/
def Obligations.ShiftArithmetic : Prop :=
  ∀ (f : Flags) (v : Byte),
    let nz (r : Byte × Flags) : Prop := r.2.n = r.1.msb ∧ (r.2.z = true ↔ r.1 = 0) ∧
      r.2.v = f.v ∧ r.2.d = f.d ∧ r.2.i = f.i
    ((asl f v).1.toNat + 256 * (asl f v).2.c.toNat = 2 * v.toNat ∧ nz (asl f v)) ∧
    (2 * (lsr f v).1.toNat + (lsr f v).2.c.toNat = v.toNat ∧ nz (lsr f v)) ∧
    ((rol f v).1.toNat + 256 * (rol f v).2.c.toNat = 2 * v.toNat + f.c.toNat ∧ nz (rol f v)) ∧
    (2 * (ror f v).1.toNat + (ror f v).2.c.toNat = v.toNat + 256 * f.c.toNat ∧ nz (ror f v)) ∧
    ((incByte f v).1.toNat = (v.toNat + 1) % 256 ∧ (incByte f v).2.c = f.c ∧ nz (incByte f v)) ∧
    ((decByte f v).1.toNat = (v.toNat + 255) % 256 ∧ (decByte f v).2.c = f.c ∧ nz (decByte f v))

/-- TSB and TRB set and clear in memory the bits of A; Z says that none of them was set, and no other flag
changes (43_rmw R380, R381). -/
def Obligations.TestAndSetBitsComplete : Prop :=
  ∀ (m : Mode) (s : State), (Instr.tsb m).wf = true → s.cpu.cycle = 1 →
    let v := s.byteAt (s.effAddr m)
    let r := { s.cpu.regs with
      pc := s.pcAfter m, flags := { s.cpu.flags with z := decide (s.cpu.a &&& v = 0) } }
    let run (i : Instr) (w : Byte) : Prop :=
      Ready s (s.rmwTrace m false w) →
        CompletesStoring i s (s.rmwTrace m false w) r (s.effAddr m) w
    run (.tsb m) (v ||| s.cpu.a) ∧ run (.trb m) (v &&& ~~~s.cpu.a)

/-- RMBn and SMBn clear and set bit n of the zero-page byte; no flag and no other register than PC
changes (43_rmw R382, R383, 40_dispatch R214). -/
def Obligations.BitSetAndResetComplete : Prop :=
  ∀ s : State, s.cpu.cycle = 1 →
    let v := s.byteAt (s.effAddr .zp)
    let run (i : Instr) (w : Byte) : Prop :=
      Ready s (s.rmwTrace .zp false w) →
        CompletesStoring i s (s.rmwTrace .zp false w) { s.cpu.regs with pc := s.cpu.pc + 1 }
          (zpAddr s.b1) w
    (run .rmb0 (v &&& 0xFE) ∧ run .rmb1 (v &&& 0xFD) ∧ run .rmb2 (v &&& 0xFB) ∧ run .rmb3 (v &&& 0xF7) ∧
      run .rmb4 (v &&& 0xEF) ∧ run .rmb5 (v &&& 0xDF) ∧ run .rmb6 (v &&& 0xBF) ∧ run .rmb7 (v &&& 0x7F)) ∧
    (run .smb0 (v ||| 0x01) ∧ run .smb1 (v ||| 0x02) ∧ run .smb2 (v ||| 0x04) ∧ run .smb3 (v ||| 0x08) ∧
      run .smb4 (v ||| 0x10) ∧ run .smb5 (v ||| 0x20) ∧ run .smb6 (v ||| 0x40) ∧ run .smb7 (v ||| 0x80))

/-! ### Control transfer -/

/-- The nine relative branches: taken on their condition, the target is the next instruction's address
plus the signed offset, and nothing but PC changes (44_control R401 to R409, 40_dispatch R230, 30_encoding
R170). -/
def Obligations.BranchesComplete : Prop :=
  ∀ s : State, s.cpu.cycle = 1 →
    let next := s.cpu.pc + 1
    let run (i : Instr) (taken : Bool) : Prop :=
      Ready s (s.branchTrace taken) →
        Completes i s (s.branchTrace taken) { s.cpu.regs with
          pc := if taken then BitVec.ofInt 16 (next.toNat + s.b1.toInt) else next }
    let f := s.cpu.flags
    run .bpl (!f.n) ∧ run .bmi f.n ∧ run .bvc (!f.v) ∧ run .bvs f.v ∧ run .bcc (!f.c) ∧ run .bcs f.c ∧
      run .bne (!f.z) ∧ run .beq f.z ∧ run .bra true

/-- BBRn and BBSn: taken when bit n of the zero-page byte is 0, or 1 (44_control R410, R411, 40_dispatch
R231, 30_encoding R173). -/
def Obligations.BitBranchesComplete : Prop :=
  ∀ s : State, s.cpu.cycle = 1 →
    let next := s.cpu.pc + 2
    let run (i : Instr) (taken : Bool) : Prop :=
      Ready s (s.bitBranchTrace taken) →
        Completes i s (s.bitBranchTrace taken) { s.cpu.regs with
          pc := if taken then BitVec.ofInt 16 (next.toNat + s.b2.toInt) else next }
    let b (n : Nat) : Bool := (s.byteAt (zpAddr s.b1)).getLsbD n
    (run .bbr0 (!b 0) ∧ run .bbr1 (!b 1) ∧ run .bbr2 (!b 2) ∧ run .bbr3 (!b 3) ∧
      run .bbr4 (!b 4) ∧ run .bbr5 (!b 5) ∧ run .bbr6 (!b 6) ∧ run .bbr7 (!b 7)) ∧
    (run .bbs0 (b 0) ∧ run .bbs1 (b 1) ∧ run .bbs2 (b 2) ∧ run .bbs3 (b 3) ∧
      run .bbs4 (b 4) ∧ run .bbs5 (b 5) ∧ run .bbs6 (b 6) ∧ run .bbs7 (b 7))

/-- JMP: to the operand, or to the word its pointer holds, the pointer's second byte read at the next
address of the 16-bit space (44_control R412, 30_encoding R171, R172, 40_dispatch R232, R233, R234). -/
def Obligations.JumpsComplete : Prop :=
  ∀ s : State, s.cpu.cycle = 1 →
    let r := s.cpu.regs
    let base := word s.b2 s.b1
    (Ready s [s.opnd s.cpu.pc, s.opnd (s.cpu.pc + 1)] →
      Completes (.jmp .abs) s [s.opnd s.cpu.pc, s.opnd (s.cpu.pc + 1)] { r with pc := base }) ∧
    (Ready s (s.jmpIndTrace .absInd) →
      Completes (.jmp .absInd) s (s.jmpIndTrace .absInd)
        { r with pc := word (s.byteAt (base + 1)) (s.byteAt base) }) ∧
    (Ready s (s.jmpIndTrace .absIndX) →
      let p := base + zext16 r.x
      Completes (.jmp .absIndX) s (s.jmpIndTrace .absIndX)
        { r with pc := word (s.byteAt (p + 1)) (s.byteAt p) })

/-- JSR pushes the address of its last byte, high byte first, and goes to the operand, whose high byte is
fetched after the pushes; no other byte of memory changes (44_control R415, 40_dispatch R235). -/
def Obligations.CallCompletes : Prop :=
  ∀ s : State, s.cpu.cycle = 1 → Ready s s.jsrTrace →
    ∃ t, exec .jsr s = .next t ∧ Completed s s.jsrTrace t ∧
      t.cpu.regs = { s.cpu.regs with
        sp := s.cpu.sp - 2, pc := word ((s.pushedPc (s.cpu.pc + 1)).byteAt (s.cpu.pc + 1)) s.b1 } ∧
      ramRead t.ram (stackAddr s.cpu.sp) = hiByte (s.cpu.pc + 1) ∧
      ramRead t.ram (stackAddr (s.cpu.sp - 1)) = loByte (s.cpu.pc + 1) ∧
      ∀ a, a ≠ stackAddr s.cpu.sp → a ≠ stackAddr (s.cpu.sp - 1) → ramRead t.ram a = ramRead s.ram a

/-- RTS pulls PC, low byte first, and adds one; no flag changes (44_control R416, 40_dispatch R236). -/
def Obligations.SubroutineReturnCompletes : Prop :=
  ∀ s : State, s.cpu.cycle = 1 → Ready s s.rtsTrace →
    Completes .rts s s.rtsTrace { s.cpu.regs with
      sp := s.cpu.sp + 2, pc := word (s.pulled 2) (s.pulled 1) + 1 }

/-- RTI pulls the flags, bits 5 and 4 ignored, then PC, low byte first, and does not add one (44_control R417,
40_dispatch R237). -/
def Obligations.InterruptReturnCompletes : Prop :=
  ∀ s : State, s.cpu.cycle = 1 → Ready s s.rtiTrace →
    let p := s.pulled 1
    Completes .rti s s.rtiTrace { s.cpu.regs with
      sp := s.cpu.sp + 3
      pc := word (s.pulled 3) (s.pulled 2)
      flags := ⟨p.getLsbD 7, p.getLsbD 6, p.getLsbD 3, p.getLsbD 2, p.getLsbD 1, p.getLsbD 0⟩ }

/-- BRK with the ignored signature ends after its operand byte, with no other effect. With any other it takes
its exception: it pushes the address after the signature and the status byte with B and bit 5 set, sets I,
clears D and goes to the vector at 0xFFFE (44_control R418, 40_dispatch R238, 60_exceptions R753). -/
def Obligations.BreakCompletes : Prop :=
  ∀ s : State, s.cpu.cycle = 1 →
    let pc := s.cpu.pc + 1
    let f := s.cpu.flags
    let sp := s.cpu.sp
    let tr := s.opnd s.cpu.pc :: s.entryTrace pc true 0xFFFE
    (s.params.brkSoftIgnoreSig = some s.b1 → Ready s [s.opnd s.cpu.pc] →
      Completes .brk s [s.opnd s.cpu.pc] { s.cpu.regs with pc := pc }) ∧
    (s.params.brkSoftIgnoreSig ≠ some s.b1 → Ready s tr →
      ∃ t, exec .brk s = .next t ∧ Completed s tr t ∧
        t.cpu.regs = { s.cpu.regs with
          sp := sp - 3, pc := s.vectorAt pc true 0xFFFE, flags := { f with i := true, d := false } } ∧
        ramRead t.ram (stackAddr sp) = hiByte pc ∧ ramRead t.ram (stackAddr (sp - 1)) = loByte pc ∧
        (let p := ramRead t.ram (stackAddr (sp - 2))
         p.getLsbD 4 = true ∧ p.getLsbD 5 = true ∧ Flags.unpack p = f) ∧
        ∀ a, a ≠ stackAddr sp → a ≠ stackAddr (sp - 1) → a ≠ stackAddr (sp - 2) →
          ramRead t.ram a = ramRead s.ram a)

/-! ### Stack, flags, no-ops, halts -/

/-- PHA, PHX, PHY and PHP store their byte at 0x0100 + S, PHP the status byte with B and bit 5 set, and
decrement S (45_stack_flags_misc R430 to R433, 40_dispatch R239, 10_state R33, R35). -/
def Obligations.PushesComplete : Prop :=
  ∀ s : State, s.cpu.cycle = 1 →
    let r := s.cpu.regs
    let run (i : Instr) (v : Byte) : Prop :=
      Ready s (s.pushTrace v) →
        CompletesStoring i s (s.pushTrace v) { r with sp := r.sp - 1 } (0x0100 + zext16 r.sp) v
    let p := r.flags.pack true
    run .pha r.a ∧ run .phx r.x ∧ run .phy r.y ∧ run .php p ∧
      p.getLsbD 4 = true ∧ p.getLsbD 5 = true ∧ Flags.unpack p = r.flags

/-- PLA, PLX, PLY and PLP read the byte at 0x0100 + S + 1 and increment S; the first three set N and Z from
it, and PLP sets every flag from it (45_stack_flags_misc R434 to R437, 40_dispatch R240). -/
def Obligations.PullsComplete : Prop :=
  ∀ s : State, s.cpu.cycle = 1 → Ready s s.pullTrace →
    let v := s.byteAt (0x0100 + zext16 (s.cpu.sp + 1))
    let r := { s.cpu.regs with sp := s.cpu.sp + 1 }
    let f := { r.flags with n := v.msb, z := decide (v = 0) }
    Completes .pla s s.pullTrace { r with a := v, flags := f } ∧
    Completes .plx s s.pullTrace { r with x := v, flags := f } ∧
    Completes .ply s s.pullTrace { r with y := v, flags := f } ∧
    Completes .plp s s.pullTrace { r with
      flags := ⟨v.getLsbD 7, v.getLsbD 6, v.getLsbD 3, v.getLsbD 2, v.getLsbD 1, v.getLsbD 0⟩ }

/-- CLC, SEC, CLI, SEI, CLD, SED and CLV change their flag only (45_stack_flags_misc R438 to R444, 40_dispatch
R210). -/
def Obligations.FlagInstructionsComplete : Prop :=
  ∀ s : State, s.cpu.cycle = 1 → Ready s [s.dummy s.cpu.pc] →
    let f := s.cpu.flags
    let run (i : Instr) (g : Flags) : Prop := Completes i s [s.dummy s.cpu.pc] { s.cpu.regs with flags := g }
    run .clc { f with c := false } ∧ run .sec { f with c := true } ∧ run .cli { f with i := false } ∧
    run .sei { f with i := true } ∧ run .cld { f with d := false } ∧ run .sed { f with d := true } ∧
    run .clv { f with v := false }

/-- NOP and the undefined no-ops change nothing but PC, and make the bus cycles of their rules
(45_stack_flags_misc R445 to R451, 40_dispatch R210, R242, R243, R244). -/
def Obligations.NoOpsComplete : Prop :=
  ∀ (op : Byte) (s : State), s.cpu.cycle = 1 →
    let run (i : Instr) (tr : List BusRecord) (pc : Addr) : Prop :=
      i.wf = true → Ready s tr → Completes i s tr { s.cpu.regs with pc := pc }
    run .nop [s.dummy s.cpu.pc] s.cpu.pc ∧
    run (.nopOne op) [] s.cpu.pc ∧
    run (.nopImm op) (s.readTrace .imm false) (s.cpu.pc + 1) ∧
    run .nopZp (s.readTrace .zp false) (s.cpu.pc + 1) ∧
    run (.nopZpX op) (s.readTrace .zpX false) (s.cpu.pc + 1) ∧
    run (.nopAbs op) (s.readTrace .abs false) (s.cpu.pc + 2) ∧
    run .nop5C s.nop5CTrace (s.cpu.pc + 2)

/-- WAI and STP make the CPU Waiting, or Stopped, after two dummy cycles, and change nothing else
(45_stack_flags_misc R452, R453, 40_dispatch R245). -/
def Obligations.HaltsComplete : Prop :=
  ∀ s : State, s.cpu.cycle = 1 →
    let tr := [s.dummy s.cpu.pc, s.dummy s.cpu.pc]
    let run (i : Instr) (m : CpuMode) : Prop :=
      ∃ t, exec i s = .next t ∧ Completed { s with cpu := { s.cpu with mode := m } } tr t ∧
        t.cpu.regs = s.cpu.regs ∧ t.ram = s.ram
    Ready s tr → run .wai .waiting ∧ run .stp .stopped

/-! ### Interrupts, break control, sleep -/

/-- A pending RESET is taken at a boundary, whatever the run state: seven cycles, nothing written, S less 3,
I set, D cleared, PC from the vector at 0xFFFC, every other register and flag kept (60_exceptions R752,
R754). -/
def Obligations.ResetSequenceTaken : Prop :=
  ∀ s : State, s.cpu.cycle = 0 → s.cpu.breakFound s.params = none → s.cpu.pendReset = true →
    Ready s s.resetTrace →
    let u := { s.awakened with cpu := { s.awakened.cpu with opcode := .reset, pendReset := false } }
    ∃ t, step s = .next t ∧ Completed u s.resetTrace t ∧
      t.cpu.regs = { s.cpu.regs with
        sp := s.cpu.sp - 3, pc := word (s.byteAt 0xFFFD) (s.byteAt 0xFFFC)
        flags := { s.cpu.flags with i := true, d := false } } ∧
      t.ram = s.ram

/-- An NMI, or an IRQ with I clear, is taken at a boundary: PC and the status byte with B clear go to the stack,
I is set, D cleared, and PC comes from the vector at 0xFFFA, or 0xFFFE; only the NMI clears its pending bit
(60_exceptions R750, R751, R754). -/
def Obligations.InterruptTaken : Prop :=
  ∀ (nmi : Bool) (s : State), TakesInterrupt nmi s →
    let vector : Addr := if nmi then 0xFFFA else 0xFFFE
    let sp := s.cpu.sp
    let tr := s.interruptTrace vector
    Ready s tr →
    let u := { s.awakened with
      cpu := { s.awakened.cpu with opcode := if nmi then .nmi else .irq, pendNmi := false } }
    ∃ t, step s = .next t ∧ Completed u tr t ∧
      t.cpu.regs = { s.cpu.regs with
        sp := sp - 3, pc := s.vectorAt s.cpu.pc false vector
        flags := { s.cpu.flags with i := true, d := false } } ∧
      ramRead t.ram (stackAddr sp) = hiByte s.cpu.pc ∧
      ramRead t.ram (stackAddr (sp - 1)) = loByte s.cpu.pc ∧
      (let p := ramRead t.ram (stackAddr (sp - 2))
       p.getLsbD 4 = false ∧ p.getLsbD 5 = true ∧ Flags.unpack p = s.cpu.flags) ∧
      ∀ a, a ≠ stackAddr sp → a ≠ stackAddr (sp - 1) → a ≠ stackAddr (sp - 2) →
        ramRead t.ram a = ramRead s.ram a

/-- RTI after a taken interrupt, and RTS after JSR, with RAM and S as the entry left them, give back PC and
S, and RTI the flags (44_control R415, R416, R417, 60_exceptions R755). -/
def Obligations.ReturnsUndoEntries : Prop :=
  (∀ (nmi : Bool) (s t u : State), TakesInterrupt nmi s →
    Ready s (s.interruptTrace (if nmi then 0xFFFA else 0xFFFE)) → step s = .next t →
    u.cpu.cycle = 1 → u.ram = t.ram → u.cpu.sp = t.cpu.sp → Ready u u.rtiTrace →
    ∃ v, exec .rti u = .next v ∧ v.cpu.sp = s.cpu.sp ∧ v.cpu.pc = s.cpu.pc ∧ v.cpu.flags = s.cpu.flags) ∧
  (∀ s t u : State, s.cpu.cycle = 1 → Ready s s.jsrTrace → exec .jsr s = .next t →
    u.cpu.cycle = 1 → u.ram = t.ram → u.cpu.sp = t.cpu.sp → Ready u u.rtsTrace →
    ∃ v, exec .rts u = .next v ∧ v.cpu.sp = s.cpu.sp ∧ v.cpu.pc = s.cpu.pc + 2)

/-- The break evaluation at a boundary: a break whose condition holds ends the run before any bus cycle,
with the first reason of TRAP, NEXT, STEP_IN, STEP_OVER, STEP_OUT, and nothing but the break control
changes. Every flag whose condition held is cleared and the others stay armed; a step-over that has just
entered a subroutine or handler is deep; the completed sequence is looked at once; and where no condition
holds the step ends in no break (60_exceptions R780 to R786). -/
def Obligations.BreaksStopTheRun : Prop :=
  ∀ s : State, s.cpu.cycle = 0 → Ready s [] →
    let b := s.cpu.brk
    let returned := s.cpu.opcode = .instr 0x60 ∨ s.cpu.opcode = .instr 0x40
    let entered := s.cpu.opcode = .instr 0x20 ∨ s.cpu.opcode = .irq ∨ s.cpu.opcode = .nmi ∨
      (s.cpu.opcode = .instr 0x00 ∧ s.params.brkSoftIgnoreSig ≠ some s.cpu.data)
    let looked := b.evalPending = true
    let trap := b.fromTrap = true
    let next := looked ∧ b.next = true
    let stepIn := looked ∧ b.stepIn = true
    let stepOver := looked ∧ b.stepOver = true ∧
      if b.stepDeep = true then returned ∧ b.stepSP.toNat ≤ s.cpu.sp.toNat else ¬entered
    let stepOut := looked ∧ b.stepOut = true ∧ returned ∧ b.stepSP.toNat < s.cpu.sp.toNat
    ∃ b' : BreakState,
      (b'.fromTrap = false ∧ (b'.next = true ↔ b.next = true ∧ ¬next) ∧
        (b'.stepIn = true ↔ b.stepIn = true ∧ ¬stepIn) ∧ (b'.stepOver = true ↔ b.stepOver = true ∧ ¬stepOver) ∧
        (b'.stepOut = true ↔ b.stepOut = true ∧ ¬stepOut) ∧ b'.evalPending = false ∧ b'.stepSP = b.stepSP ∧
        (b'.stepDeep = true ↔ b.stepDeep = true ∨ (looked ∧ b.stepOver = true ∧ entered))) ∧
      (let fires (r : BreakReason) : Prop := b'.reason = r ∧
         step s = .next { s with cpu := { s.cpu with brk := b' }, runExit := some (.brk r) }
       (trap → fires .trap) ∧
       (¬trap → next → fires .next) ∧
       (¬trap → ¬next → stepIn → fires .stepIn) ∧
       (¬trap → ¬next → ¬stepIn → stepOver → fires .stepOver) ∧
       (¬trap → ¬next → ¬stepIn → ¬stepOver → stepOut → fires .stepOut) ∧
       (¬trap → ¬next → ¬stepIn → ¬stepOver → ¬stepOut →
         b'.reason = b.reason ∧ s.cpu.breakEvaluated s.params = b' ∧
           ∀ t r, step s = .next t → t.runExit ≠ some (.brk r)))

/-- A write to CPUSLEEP makes the CPU Sleeping. A CPU that nothing wakes makes no bus cycle: time moves on
to the earliest event, and with no event the run ends STALLED. An IRQ wakes a Sleeping or Waiting CPU even
with I set, and the instruction after runs (60_exceptions R772, 55_system R704). -/
def Obligations.SleepAndWake : Prop :=
  (∀ (s : State) (v : Byte), s.mapctl.getLsbD 1 = false → (∀ w, untrapped s.traps ⟨.write, 0xFD91, w⟩ = true) →
    let t := (resolve (.write 0xFD91 v) s).2
    t = { s with
      cpu := { s.cpu with mode := .sleeping }, now := t.now, prevBus := t.prevBus, busLog := t.busLog }) ∧
  ∀ s : State, s.cpu.cycle = 0 → Ready s [] → s.cpu.breakFound s.params = none →
    s.cpu.pendReset = false → s.cpu.pendNmi = false →
    let u := { s with cpu := { s.cpu with brk := s.cpu.breakEvaluated s.params } }
    let i := decodeOpcode s.params (s.byteAt s.cpu.pc)
    ((s.cpu.mode = .stopped ∨ (s.cpu.mode ≠ .running ∧ s.irqLine = false)) →
      (∀ e, peekEarliestTick s.queue = some e → step s = .next { u with now := e }) ∧
      (peekEarliestTick s.queue = none → step s = .next { u with runExit := some .stalled })) ∧
    (s.cpu.mode ≠ .stopped → s.irqLine = true → s.cpu.flags.i = true → plain s.mapctl s.cpu.pc = true →
      untrapped s.traps s.opcodeFetch = true →
      s.fetched.cpu.mode = .running ∧
        step s = if i.oneCycle || s.fetched.cpuTurn then exec i s.fetched else .next s.fetched)

/-! ### Memory and the bus -/

/-- The routing of every address under every MAPCTL, by number (20_memory R101, R102, R103). -/
def Obligations.RoutingTable : Prop :=
  ∀ (mapctl : Byte) (a : Addr),
    let n := a.toNat
    let bank (bit : Nat) (t : Target) : Target := if mapctl.getLsbD bit then .ram else t
    route mapctl a =
      if n = 0xFFF9 then .mapctl
      else if n = 0xFFF8 then .ram
      else if 0xFFFA ≤ n then bank 3 .rom
      else if 0xFE00 ≤ n then bank 2 .rom
      else if 0xFD00 ≤ n then bank 1 .chip
      else if 0xFC00 ≤ n then bank 0 .sprite
      else .ram

/-- The access of a bus cycle with no trap on it, to each of the five targets, at the tick before it takes its
time: the byte a read gives, and the one change a write makes. At the ControllerChip a read gives the register's
value and has its side effect, and a write is performed and pushes the events it yields; at the sprite chip both
are the external device's. That a read leaves the sprite device as it is, is the model's reading (20_memory R104
to R108, 54_controller_chip R632, R666, 55_system R703, log 17). -/
def Obligations.PlainAccesses : Prop :=
  ∀ (s : State) (req : BusReq),
    let a := req.addr
    (∀ w, untrapped s.traps ⟨req.kind, a, w⟩ = true) →
    let reads (b : Byte) (t : State) : Prop := resolve req s = (b, t) ∧
      t = { s with now := t.now, prevBus := t.prevBus, busLog := t.busLog }
    let stores (v : Byte) (t : State) : Prop := resolve req s = (v, t) ∧
      t = { s with ram := t.ram, now := t.now, prevBus := t.prevBus, busLog := t.busLog } ∧
      ramRead t.ram a = v ∧ ∀ b, b ≠ a → ramRead t.ram b = ramRead s.ram b
    (route s.mapctl a = .ram →
      match req with
      | .write _ v => ∃ t, stores v t
      | _ => ∃ t, reads (ramRead s.ram a) t) ∧
    (route s.mapctl a = .rom →
      match req with
      | .write _ v =>
        match s.params.romWritePolicy with
        | .discard => ∃ t, reads v t
        | .writeRam => ∃ t, stores v t
      | _ => ∃ t, reads ((Memory.get? s.rom (a.toNat - 0xFE00)).getD (Config.romImage (a.toNat - 0xFE00))) t) ∧
    (route s.mapctl a = .mapctl →
      match req with
      | .write _ v => ∃ t, resolve req s = (v, t) ∧
          t = { s with mapctl := v, now := t.now, prevBus := t.prevBus, busLog := t.busLog }
      | _ => ∃ t, reads s.mapctl t) ∧
    (route s.mapctl a = .chip →
      match req with
      | .write _ v =>
        let w := chipWrite s.now a v s
        ∃ t, resolve req s = (v, t) ∧
          t = { w.1 with
            queue := w.2.foldl (fun q e => push e q) w.1.queue
            now := t.now, prevBus := t.prevBus, busLog := t.busLog }
      | _ => ∃ t, resolve req s = (chipValue s.now a s, t) ∧
          t = { chipReadEffect a s with now := t.now, prevBus := t.prevBus, busLog := t.busLog }) ∧
    (route s.mapctl a = .sprite →
      match req with
      | .write _ v => ∃ t, resolve req s = (v, t) ∧
          t = { s with
            suzy := Config.spriteWrite s.now s.suzy a v
            now := t.now, prevBus := t.prevBus, busLog := t.busLog }
      | _ => ∃ t, reads (Config.spriteRead s.now s.suzy a) t)

/-- A CPU bus cycle at one of the eleven refused registers ends the run with `REFUSED(a)` before it takes
effect, its request outstanding and nothing else changed. Every other bus cycle is the access, made with the
request outstanding, and the CPU's answer to the byte it gave, after which no request is; a full sample buffer
then ends the run (54_controller_chip R668, 55_system R702, R703, R717). -/
def Obligations.RefusedRegistersStop : Prop :=
  ∀ (q : Seq) (s : State), s.cpu.pendingReq = none →
    let req := (q s.params s.cpu).req
    let a := req.addr
    let refused := s.mapctl.getLsbD 1 = false ∧ a.toNat ∈
      [0xFD84, 0xFD85, 0xFD86, 0xFD87, 0xFD88, 0xFD89, 0xFD90, 0xFD93, 0xFD9C, 0xFD9D, 0xFD9E]
    let asked := { s with cpu := { s.cpu with pendingReq := some req } }
    (refused → oneCycle q s = .next { asked with runExit := some (.refused a) }) ∧
    (¬refused →
      let r := resolve req asked
      let c := { r.2.cpu with pendingReq := none }
      let t := { r.2 with cpu := { (q r.2.params c).done r.1 c with pendingReq := none } }
      let full := t.runExit = none ∧ t.sampling.active = true ∧ t.sampling.idx = t.sampling.buf.length
      oneCycle q s = .next { t with runExit := if full then some .audioFull else t.runExit })

/-! ### The ControllerChip -/

/-- The storage registers read back what was written and their writes yield no event; of all register reads
only that of SERDAT changes anything, and it clears `rxReady` only. IODAT reads the written bits that are
outputs and the input pins elsewhere; CPUSLEEP makes the CPU Sleeping; DISPCTL and DISPADR are stored; they
and the unused addresses read as NOISE, and a write to an unused address does nothing (54_controller_chip
R630, R631, R658, R664, R669, 51_timers R526, 52_audio R572, R573, R574, R576, R577, 53_display R607, R608,
R610, 60_exceptions R772). -/
def Obligations.StorageRegistersReadBack : Prop :=
  ∀ (s : State) (a : Addr) (v : Byte) (t t' : Tick),
    let n := a.toNat
    let storage := (0xFD00 ≤ n ∧ n < 0xFD20 ∧ n % 4 = 0) ∨ (0xFD20 ≤ n ∧ n < 0xFD40 ∧ n % 8 < 5) ∨
      (0xFD40 ≤ n ∧ n ≤ 0xFD44) ∨ n = 0xFD50 ∨ n = 0xFD8A ∨ (0xFDA0 ≤ n ∧ n ≤ 0xFDBF)
    let unused := (0xFD45 ≤ n ∧ n ≤ 0xFD4F) ∨ (0xFD51 ≤ n ∧ n ≤ 0xFD7F) ∨ n = 0xFD82 ∨ n = 0xFD83 ∨ n = 0xFD8E ∨
      n = 0xFD8F ∨ (0xFD96 ≤ n ∧ n ≤ 0xFD9B) ∨ n = 0xFD9F ∨ (0xFDC0 ≤ n ∧ n ≤ 0xFDFF)
    (storage → chipValue t' a (chipWrite t a v s).1 = v ∧ (chipWrite t a v s).2 = []) ∧
    (0xFD00 ≤ n → n ≤ 0xFDFF →
      chipReadEffect a s = if n = 0xFD8D then { s with serial := { s.serial with rxReady := false } } else s) ∧
    (chipWrite t 0xFD8B v s = ({ s with ioDat := v }, []) ∧ ∀ i < 8, (chipValue t 0xFD8B s).getLsbD i =
      if s.ioDir.getLsbD i then s.ioDat.getLsbD i else s.ioIn.getLsbD i) ∧
    chipWrite t 0xFD91 v s = ({ s with cpu := { s.cpu with mode := .sleeping } }, []) ∧
    chipWrite t 0xFD92 v s = ({ s with display := { s.display with dispctl := v } }, []) ∧
    (∀ high : Bool, ∃ d : Addr,
      chipWrite t (if high then 0xFD95 else 0xFD94) v s = ({ s with display := { s.display with dispadr := d } }, []) ∧
      d.toNat = if high then 256 * v.toNat + s.display.dispadr.toNat % 256
        else s.display.dispadr.toNat / 256 * 256 + v.toNat) ∧
    (unused → chipWrite t a v s = (s, [])) ∧
    (unused ∨ n = 0xFD91 ∨ n = 0xFD92 ∨ n = 0xFD94 ∨ n = 0xFD95 → chipValue t a s = Config.noise a)

/-- The interrupt latch and the serial registers: INTRST clears the bits written, but not bit 4 while the
serial condition is active; INTSET sets them; a read of either gives the latch and changes nothing; and the
writes and values of SERCTL and SERDAT (54_controller_chip R650 to R654, R660, R661, R662). -/
def Obligations.InterruptLatchAndSerial : Prop :=
  ∀ (s : State) (v : Byte) (t : Tick), s.serial.txBusy = false →
    let active (ctl : Byte) : Bool := ctl.getLsbD 7 || (ctl.getLsbD 6 && s.serial.rxReady)
    let held (ctl latch : Byte) : Byte := if active ctl then latch ||| 0x10 else latch
    chipWrite t 0xFD80 v s = ({ s with irqLatch := held s.serial.ctl (s.irqLatch &&& ~~~v) }, []) ∧
    chipWrite t 0xFD81 v s = ({ s with irqLatch := s.irqLatch ||| v }, []) ∧
    chipValue t 0xFD80 s = s.irqLatch ∧ chipValue t 0xFD81 s = s.irqLatch ∧
    chipReadEffect 0xFD80 s = s ∧ chipReadEffect 0xFD81 s = s ∧
    chipWrite t 0xFD8C v s =
      ({ s with serial := { s.serial with ctl := v }, irqLatch := held v s.irqLatch }, []) ∧
    chipValue t 0xFD8C s = (if s.serial.rxReady then 0xE0 else 0xA0) ∧
    chipWrite t 0xFD8D v s = ({ s with serialOut := s.serialOut ++ [v] }, []) ∧
    chipValue t 0xFD8D s = s.serial.rxData ∧
    (s.irqLine = true ↔ ∃ n, n < 8 ∧ s.irqLatch.getLsbD n = true)

/-! ### Timers -/

/-- Count and control writes at tick t. The count a running unit had is kept; a unit that is self-clocked
after the write next fires at t + (count + 1) * 16 * 2^d, its event is yielded, and while that is within the
64 bits its count reads down by one each period; any other unit plans no fire; no other unit changes.
TIMnCNT and COUNTER set the count; TIMnCTLA and CONTROL set the enables, the clock and, on bit 6, clear
done; TIMnCTLB and OTHER clear done and touch the plan only where that changes whether the unit is
self-clocked; CONTROL and OTHER set their part of the channel too. The four control registers read back as
their rules say (51_timers R521 to R525, R527 to R530, 52_audio R578 to R580). -/
def Obligations.CountWritePlansTheFire : Prop :=
  ∀ (n : Fin 12) (t : Tick) (v : Byte) (s : State),
    let u := s.timer n
    let period (u : TimerUnit) : Nat := 16 * 2 ^ u.clockDivider.toNat
    let selfClocked (u : TimerUnit) : Prop := u.countEnabled = true ∧ u.clockDivider ≠ 7 ∧
      ¬(s.params.timerDoneGates = true ∧ u.done = true ∧ u.reloadEnabled = false)
    let plans (x : State) (u : TimerUnit) (y : Yield) : Prop :=
      let fires := t + BitVec.ofNat 64 ((u.count.toNat + 1) * period u)
      (∀ m, m ≠ n → y.1.timer m = s.timer m) ∧ y.1 = { x with timers := y.1.timers } ∧
      (selfClocked u → y.1.timer n = { u with baseTick := t, expectedFireTick := fires } ∧
        y.2 = [⟨.timer n.val, fires⟩] ∧
        (t.toNat + (u.count.toNat + 1) * period u < 2 ^ 64 → ∀ k, k ≤ u.count.toNat → ∀ e, e < period u →
          ((y.1.timer n).curCount s.params (t + BitVec.ofNat 64 (k * period u + e))).toNat = u.count.toNat - k)) ∧
      (¬selfClocked u → y.1.timer n = { u with expectedFireTick := 0 } ∧ y.2 = [] ∧
        ∀ t', (y.1.timer n).curCount s.params t' = u.count)
    let u' := { u with count := u.curCount s.params t }
    let controlled (u : TimerUnit) : TimerUnit := { u with
      done := u.done && !v.getLsbD 6, reloadEnabled := v.getLsbD 4, countEnabled := v.getLsbD 3
      clockDivider := BitVec.ofNat 3 v.toNat }
    let cleared (u : TimerUnit) : TimerUnit := { u with done := u.done && v.getLsbD 3 }
    let status (x : State) (y : Yield) : Prop :=
      ((selfClocked (cleared u) ↔ selfClocked u) →
        y.2 = [] ∧ y.1 = { x with timers := y.1.timers } ∧
          ∀ m, y.1.timer m = if m = n then cleared u else s.timer m) ∧
      (¬(selfClocked (cleared u) ↔ selfClocked u) → plans x (cleared u') y)
    let control (u : TimerUnit) : Nat :=
      16 * u.reloadEnabled.toNat + 8 * u.countEnabled.toNat + u.clockDivider.toNat
    (selfClocked u → u'.count.toNat =
      if t.toNat < u.expectedFireTick.toNat then (u.expectedFireTick.toNat - t.toNat - 1) / period u % 256 else 0) ∧
    (¬selfClocked u → u'.count = u.count) ∧
    (n.val < 8 →
      let reg (k : Nat) : Addr := BitVec.ofNat 16 (0xFD00 + 4 * n.val + k)
      plans s { u with count := v } (chipWrite t (reg 2) v s) ∧
      plans s { controlled u' with interruptEnabled := v.getLsbD 7 } (chipWrite t (reg 1) v s) ∧
      status s (chipWrite t (reg 3) v s) ∧
      chipValue t (reg 2) s = u'.count ∧
      (chipValue t (reg 1) s).toNat = 128 * u.interruptEnabled.toNat + control u ∧
      (chipValue t (reg 3) s).toNat = 8 * u.done.toNat + (Config.ctlbLow n.val t).toNat) ∧
    (∀ c : Fin 4, n.val = 8 + c.val →
      let reg (k : Nat) : Addr := BitVec.ofNat 16 (0xFD20 + 8 * c.val + k)
      let ch := s.audio.get c
      plans s { u with count := v } (chipWrite t (reg 6) v s) ∧
      (∃ ch' : AudioChannel, ch' = { ch with tapMask := ch'.tapMask, integrateEnabled := v.getLsbD 5 } ∧
        (∀ i, ch'.tapMask.getLsbD i = if i = 7 then v.getLsbD 7 else ch.tapMask.getLsbD i) ∧
        plans { s with audio := s.audio.set c ch' } (controlled u') (chipWrite t (reg 5) v s)) ∧
      (∃ ch' : AudioChannel, ch' = { ch with shift := ch'.shift } ∧
        ch'.shift.toNat = v.toNat / 16 * 256 + ch.shift.toNat % 256 ∧
        status { s with audio := s.audio.set c ch' } (chipWrite t (reg 7) v s)) ∧
      chipValue t (reg 6) s = u'.count ∧
      (chipValue t (reg 5) s).toNat =
        128 * (ch.tapMask.getLsbD 7).toNat + 32 * ch.integrateEnabled.toNat + control u ∧
      (chipValue t (reg 7) s).toNat =
        ch.shift.toNat / 256 * 16 + 8 * u.done.toNat + (Config.ctlbLow n.val t).toNat)

/-- A stale timer event does nothing. A live one makes its unit fire, whatever the cascade does beyond it:
the done bit, the latch bit of an enabled interrupt, the reload, and the next fire (backup + 1) * 16 * 2^d
ticks on; a one-shot unit stops where done gates it, and else goes on from count 0, 16 * 2^d ticks on
(51_timers R522, R531, R532, R536). -/
def Obligations.TimerFireReloads : Prop :=
  ∀ (n : Fin 12) (t : Tick) (s : State),
    let u := s.timer n
    let y := fireAction n t s
    let w := y.1.timer n
    let fires (count : Byte) : Tick := t + BitVec.ofNat 64 ((count.toNat + 1) * (16 * 2 ^ u.clockDivider.toNat))
    let reloads (count : Byte) : Prop :=
      w = { u with done := true, count := count, baseTick := t, expectedFireTick := fires count } ∧
        ⟨.timer n.val, fires count⟩ ∈ y.2
    (t ≠ u.expectedFireTick ∨ u.expectedFireTick = 0 → y = (s, [])) ∧
    (t = u.expectedFireTick → t ≠ 0 → u.countEnabled = true → u.clockDivider ≠ 7 →
      (n.val < 8 → u.interruptEnabled = true → y.1.irqLatch.getLsbD n.val = true) ∧
      (u.reloadEnabled = true → reloads u.backup) ∧
      (u.reloadEnabled = false → s.params.timerDoneGates = false → reloads 0) ∧
      (u.reloadEnabled = false → s.params.timerDoneGates = true →
        w = { u with done := true, count := 0, expectedFireTick := 0 }))

/-- The borrow of a fire reaches the successor of the table only: a linking, counting, ungated successor
counts down, or fires at 0; any other is left alone, and then no unit but the firing one changes. Units 4
and 6 have no successor: their fire changes no other unit (51_timers R520, R533). -/
def Obligations.BorrowReachesTheSuccessor : Prop :=
  ∀ (n : Fin 12) (t : Tick) (s : State), t = (s.timer n).expectedFireTick → t ≠ 0 →
    let y := fireAction n t s
    (∀ m : Fin 12,
      (n.val, m.val) ∈ [(0, 2), (1, 3), (2, 4), (3, 5), (5, 7), (7, 8), (8, 9), (9, 10), (10, 11), (11, 1)] →
      let u := s.timer m
      let accepts := u.clockDivider = 7 ∧ u.countEnabled = true ∧
        ¬(s.params.timerDoneGates = true ∧ u.done = true ∧ u.reloadEnabled = false)
      (accepts → u.count ≠ 0 → y.1.timer m = { u with count := u.count - 1 } ∧
        ∀ k, k ≠ n → k ≠ m → y.1.timer k = s.timer k) ∧
      (accepts → u.count = 0 → y.1.timer m = { u with
        done := true, count := if u.reloadEnabled then u.backup else 0, expectedFireTick := 0 }) ∧
      (¬accepts → ∀ k, k ≠ n → y.1.timer k = s.timer k)) ∧
    (n = 4 ∨ n = 6 → ∀ k, k ≠ n → y.1.timer k = s.timer k)

/-- A cascade ends: more fuel than 12 fires changes nothing. It takes no ticks, and touches only the timers,
the audio channels, the display, the latch, the queue and the video calls (51_timers R534, R535). -/
def Obligations.CascadeEnds : Prop :=
  ∀ (n : Fin 12) (t : Tick) (s : State),
    (∀ k, fire (12 + k) [] n t s = fire 12 [] n t s) ∧
    (let y := (fireAction n t s).1
     y = { s with
       timers := y.timers, audio := y.audio, display := y.display, irqLatch := y.irqLatch
       queue := y.queue, video := y.video })

/-! ### Audio and display -/

/-- A trigger: the new bit is the parity of the tapped bits, inverted by the parameter; it is shifted in at
bit 0 of the 12; the output is plus or minus the volume, or their clamped running sum (52_audio R575). -/
def Obligations.AudioTriggerOutput : Prop :=
  ∀ (invert : Bool) (ch : AudioChannel),
    let r := ch.trigger invert
    let tapped := (List.range 12).countP fun i => ch.shift.getLsbD i && ch.tapMask.getLsbD i
    let nb := xor (decide (tapped % 2 = 1)) invert
    let v : Int := if nb then ch.volume.toInt else if ch.volume = 0x80 then -128 else -ch.volume.toInt
    r.lastParity = nb ∧ r.shift.toNat = (2 * ch.shift.toNat + nb.toNat) % 4096 ∧
    r.lastOutput.toInt =
      (if ch.integrateEnabled then max (-128) (min 127 (ch.lastOutput.toInt + v)) else v) ∧
    r.tapMask = ch.tapMask ∧ r.volume = ch.volume ∧ r.integrateEnabled = ch.integrateEnabled

/-- The bits of the first N triggers are a function of the taps, the initial shift register and the parameter
(52_audio R582). -/
def Obligations.LfsrBitsIgnoreTheOutput : Prop :=
  ∀ (invert : Bool) (c c' : AudioChannel), c.tapMask = c'.tapMask → c.shift = c'.shift →
    ∀ n, (List.range n).map (fun k => ((AudioChannel.trigger invert)^[k + 1] c).lastParity) =
      (List.range n).map (fun k => ((AudioChannel.trigger invert)^[k + 1] c').lastParity)

/-- An hblank sends the sink the bytes not yet sent and the new row; with DMA enabled on a visible row it
requests the row's first beat, and its beats, one after another, put the row's RAM bytes into the line
buffer, all of them after DMA_BEATS, each beat moving time by its cost and requesting the next
DMA_BEAT_SPACING ticks on, but the last; with DMA disabled or past the visible rows there is no request.
That no call is made for no byte is the model's reading (53_display R602 to R605, log 15). -/
def Obligations.RowDmaFetchesTheRow : Prop :=
  ∀ (t : Tick) (s : State),
    let y := hblank t s
    let start := BitVec.ofNat 16 (s.display.dispadr.toNat + s.display.row * s.params.rowBytes)
    (s.display.dispctl.getLsbD 0 = true → s.display.row < s.params.visibleRows →
      y.2 = [⟨.displayDma, t + BitVec.ofNat 64 (Config.dmaStartOffset start)⟩] ∧
      ∀ (at' : Tick) (k : Nat), k ≤ s.params.dmaBeats →
        let z := (fun x => (displayDma at' x).1)^[k] y.1
        z.display.lineBuf = (List.range (k * s.params.beatBytes)).map
          (fun i => ramRead s.ram (start + BitVec.ofNat 16 i)) ∧
        z.display.beatsLeft = s.params.dmaBeats - k ∧
        z.now = (fun x => advanceTick x Config.dmaCpuCost)^[k] s.now ∧
        (∀ at'' : Tick, (displayDma at'' z).2 = if k + 1 < s.params.dmaBeats then
          [⟨.displayDma, at'' + BitVec.ofNat 64 Config.dmaBeatSpacing⟩] else []) ∧
        (k = s.params.dmaBeats → z.display.lineBuf.length = s.params.rowBytes)) ∧
    (¬(s.display.dispctl.getLsbD 0 = true ∧ s.display.row < s.params.visibleRows) → y.2 = []) ∧
    y.1.display.row = min (s.display.row + 1) 65535 ∧
    y.1.video = s.video ++ (if s.display.emitted < s.display.lineBuf.length then
      [.emitScreenData (s.display.lineBuf.drop s.display.emitted)] else []) ++ [.newRow s.display.row] ∧
    (∀ e ∈ y.1.queue, e.kind ≠ .displayDma)

/-- A palette write stores its byte and, after the bytes of the line up to its pixel column that were not
yet emitted, tells the sink; a vblank emits what is left, calls the new frame and clears the row. That an
empty emission makes no call is the model's reading (53_display R601, R606, R610, log 15). -/
def Obligations.PaletteWritesAndVblank : Prop :=
  ∀ (t : Tick) (s : State),
    (∀ (i : Nat) (v : Byte), i < 32 →
      let a := BitVec.ofNat 16 (0xFDA0 + i)
      let y := (chipWrite t a v s).1
      let k := min s.display.lineBuf.length
        (min (Config.pixelColumn t s.display.rowStartTick) (2 * s.params.rowBytes) / 2)
      chipValue t a y = v ∧
      y.video = s.video ++
        (if s.display.emitted < k then
          [.emitScreenData ((s.display.lineBuf.take k).drop s.display.emitted)] else []) ++
        [.updateColorReg i v] ∧
      y.display = { s.display with emitted := max s.display.emitted k }) ∧
    (let y := vblank s
     (s.display.emitted < s.display.lineBuf.length →
       y.video = s.video ++ [.emitScreenData (s.display.lineBuf.drop s.display.emitted), .newFrame]) ∧
     (s.display.lineBuf.length ≤ s.display.emitted → y.video = s.video ++ [.newFrame]) ∧
     y.display.row = 0 ∧ y.display.lineBuf = [] ∧ y.display.beatsLeft = 0 ∧
     y.queue = s.queue.filter fun e => decide (e.kind ≠ .displayDma))

/-! ### Queue, host calls -/

/-- The queue: a push adds the event; a pop takes out an event of least tick, whatever the tie order, or
returns the sentinel and takes out nothing when there is none; a second pop comes no earlier; a cancel takes
out the kind and nothing else (50_event_queue R502, R504, R505, R508, R509). -/
def Obligations.QueuePopsInOrder : Prop :=
  ∀ (q : List Event) (ties : Nat),
    let r := popEarliest ties q
    (∀ e, List.Perm (push e q) (e :: q)) ∧
    ((∃ e ∈ q, e.kind ≠ .none) →
      r.1 ∈ q ∧ r.1.kind ≠ .none ∧ List.Perm q (r.1 :: r.2.1) ∧
      ∀ e ∈ q, e.kind ≠ .none → r.1.tick ≤ e.tick) ∧
    ((∀ e ∈ q, e.kind = .none) → r.1 = ⟨.none, 0⟩ ∧ r.2.1 = q) ∧
    ((∃ e ∈ r.2.1, e.kind ≠ .none) → ∀ ties', r.1.tick ≤ (popEarliest ties' r.2.1).1.tick) ∧
    (∀ k, (∀ e ∈ cancel k q, e.kind ≠ k) ∧ ∀ e, e.kind ≠ k → List.count e (cancel k q) = List.count e q)

/-- `pulseReset()`: deferred while the sprite device is busy, without effect in a reset window, else it
makes a RESET pending and opens a window, which its release event closes; a deferred one is made when the
device comes to rest (70_reset R801, R802, 55_system R706). -/
def Obligations.PulseResetAndDeferral : Prop :=
  ∀ s : State,
    let asserted (x : State) : State := { x with
      resetLine := true, cpu := { x.cpu with pendReset := true }
      queue := push ⟨.resetRelease, x.now + BitVec.ofNat 64 Config.resetTicks⟩ x.queue }
    1 ≤ Config.resetTicks ∧
    (s.suzy.busy = true → pulseReset s = { s with resetDeferred := true }) ∧
    (s.suzy.busy = false → s.resetLine = true → pulseReset s = s) ∧
    (s.suzy.busy = false → s.resetLine = false → pulseReset s = asserted s) ∧
    (∀ e, handleEvent ⟨.resetRelease, e⟩ s = .next ({ s with resetLine := false }, [])) ∧
    (let r := Config.spriteStep s.now s.suzy s.ram
     let x := { s with suzy := r.1, ram := writeBytes r.2.1 s.ram, now := advanceTick s.now (1 + r.2.2) }
     let wake (x : State) : State :=
       if x.cpu.mode = .sleeping then { x with cpu := { x.cpu with mode := .running } } else x
     spriteMicroStep s =
       if r.1.busy then x
       else wake (if s.resetDeferred then asserted { x with resetDeferred := false } else x))

/-- `advanceAudio`: it starts with no sample taken and one sample event planned; each dispatched sample
event fills one slot and plans the next until the buffer is full; at the end every slot not filled is silent
and no sample event is left. That a slot holds 0 before its sample is taken is the model's choice (55_system R709,
R710, R711, log 24). -/
def Obligations.AdvanceAudioFillsTheBuffer : Prop :=
  (∀ (rate k : Nat) (m : RunMode) (s : State), rate ≠ 0 →
    ∃ t, beginAdvanceAudio rate k m s = .next t ∧
      t.sampling = ⟨true, List.replicate k 0, 0, rate, s.now⟩ ∧
      (∀ e ∈ t.queue, e.kind = .audioSample → e.tick = s.now + BitVec.ofNat 64 (s.params.ticksPerSecond / rate)) ∧
      List.countP (fun e => decide (e.kind = .audioSample)) t.queue = min k 1 ∧
      t.runExit = if k = 0 then some .audioFull else none) ∧
  (∀ s : State, s.sampling.idx < s.sampling.buf.length →
    let x := s.sampling
    let next := x.start + BitVec.ofNat 64 ((x.idx + 2) * s.params.ticksPerSecond / x.rate)
    let mixed := Config.mix (s.audio.toList.map (·.lastOutput)) s.atten.toList s.mpan s.mstereo
    audioSample s = ({ s with sampling := { x with buf := x.buf.set x.idx mixed, idx := x.idx + 1 } },
      if x.idx + 1 < x.buf.length then [⟨.audioSample, next⟩] else [])) ∧
  (∀ s : State, s.sampling.buf.length ≤ s.sampling.idx → audioSample s = (s, [])) ∧
  (∀ s : State, s.sampling.idx ≤ s.sampling.buf.length →
    let t := finishAdvanceAudio s
    t.sampling.buf.length = s.sampling.buf.length ∧
    (∀ i, i < s.sampling.buf.length →
      t.sampling.buf[i]? = if i < s.sampling.idx then s.sampling.buf[i]? else some 0) ∧
    ∀ e ∈ t.queue, e.kind ≠ .audioSample)

/-- The other host inputs, and the traps. `setNMI` makes an NMI pending on a rising level and on no other;
`serialReceive` delivers the byte and holds latch bit 4 where the serial condition is active; entering `run`
clears the reason and arms the flag its mode names, so that the next sequence to complete is the first
counted. A bus cycle at RAM passes its value through the traps of its kind and address, in their order, a
read after it, a write before it, and one that asks for a break sets `breakFromTrap` (60_exceptions R757,
R781, R783, R784, 54_controller_chip R654, 55_system R708, R714, R717). -/
def Obligations.HostInputsAndTraps : Prop :=
  ∀ s : State,
    (∀ level, setNmi level s = { s with
      nmiIn := level
      cpu := { s.cpu with pendNmi := if level = true ∧ s.nmiIn = false then true else s.cpu.pendNmi } }) ∧
    (s.serial.txBusy = false → ∀ b, serialReceive b s = { s with
      serial := { s.serial with rxData := b, rxReady := true }
      irqLatch := if s.serial.ctl.getLsbD 7 || s.serial.ctl.getLsbD 6 then s.irqLatch ||| 0x10 else s.irqLatch }) ∧
    (∀ m : RunMode,
      let b := s.cpu.brk
      hostRun m s = { s with
        runExit := none
        cpu := { s.cpu with brk := { b with
          reason := .none
          next := b.next || decide (m = .next)
          stepIn := b.stepIn || decide (m = .stepIn)
          stepOver := b.stepOver || decide (m = .stepOver)
          stepOut := b.stepOut || decide (m = .stepOut)
          stepSP := if m = .stepOver ∨ m = .stepOut then s.cpu.sp else b.stepSP
          stepDeep := b.stepDeep && !decide (m = .stepOver)
          evalPending := b.evalPending && decide (m = .free) } } }) ∧
    (∀ req : BusReq, route s.mapctl req.addr = .ram →
      let a := req.addr
      let on (x : Trap) : Bool := match req with
        | .fetchOpcode _ | .fetchOperand _ => x.onFetch
        | .read _ => x.onRead
        | .discard _ => x.onDiscard
        | .write _ _ => x.onWrite
      let through (v : Byte) : Byte × Bool :=
        (s.traps.filter fun x => on x && x.addrs.contains a).foldl
          (fun r x => ((Config.trapFn x.fn s.now a r.1).1, r.2 || (Config.trapFn x.fn s.now a r.1).2)) (v, false)
      let y := resolve req s
      let after (r : Byte × Bool) : Prop := y.1 = r.1 ∧ y.2 = { s with
        cpu := { s.cpu with brk := { s.cpu.brk with fromTrap := s.cpu.brk.fromTrap || r.2 } }
        ram := y.2.ram, now := y.2.now, prevBus := y.2.prevBus, busLog := y.2.busLog }
      match req with
      | .write _ v => after (through v) ∧ ramRead y.2.ram a = (through v).1 ∧
          ∀ b, b ≠ a → ramRead y.2.ram b = ramRead s.ram b
      | _ => after (through (ramRead s.ram a)) ∧ y.2.ram = s.ram)

/-! ### The whole machine -/

/-- The machine right after power-on has the values the spec gives; that no DMA in flight is no beat left
and no DMA event is the model's choice (10_state R90, log 2). -/
def Obligations.PowerOnValues : Prop :=
  let s := State.reset
  s.cpu.regs = ⟨0, 0, 0, 0, 0, ⟨false, false, false, false, false, false⟩⟩ ∧
  s.cpu.pendReset = true ∧ s.cpu.pendNmi = false ∧ s.irqLine = false ∧ s.cpu.cycle = 0 ∧
  (s.cpu.opcode = .instr 0 ∧ s.cpu.ea = 0 ∧ s.cpu.ptr = 0 ∧ s.cpu.data = 0 ∧ s.cpu.crossed = false ∧
    s.cpu.pendingReq = none) ∧
  s.cpu.mode = .running ∧ s.cpu.trace = [] ∧ s.cpu.brk.reason = .none ∧
  (s.cpu.brk.next || s.cpu.brk.stepIn || s.cpu.brk.stepOver || s.cpu.brk.stepOut || s.cpu.brk.fromTrap ||
    s.cpu.brk.stepDeep || s.cpu.brk.evalPending) = false ∧
  s.sampling.active = false ∧ s.sampling.idx = 0 ∧
  s.now = 0 ∧ s.mapctl = 0 ∧ s.queue = [] ∧ s.traps = [] ∧ s.resetLine = false ∧ s.resetDeferred = false ∧
  (∀ a, ramRead s.ram a = Config.initRam a.toNat) ∧
  (∀ a, romRead s.rom a = Config.romImage (romOffset a)) ∧
  (∀ n : Fin 12, s.timer n = ⟨0, 0, false, false, false, 0, 0, 0, false⟩) ∧
  (∀ n : Fin 4, s.audio.get n = ⟨0, 0, 0, false, 0, false⟩ ∧ s.atten.get n = 0) ∧
  (∀ n : Fin 16, s.green.get n = 0 ∧ s.bluered.get n = 0) ∧
  s.irqLatch = 0 ∧ s.serial = ⟨0, false, 0, false⟩ ∧ s.ioDir = 0 ∧ s.ioDat = 0 ∧ s.mpan = 0 ∧ s.mstereo = 0 ∧
  s.display.dispctl = 0 ∧ s.display.dispadr = 0 ∧ s.display.row = 0 ∧ s.display.beatsLeft = 0

/-- Every step from a state with the invariant gives a state with it: memory in its canonical form, the
queue in order, every timer's plan agreeing with its count and in the queue, the serial condition holding
its latch bit, the absent taps 0, the row in range (10_state R61 to R76, 51_timers R522, R523, 52_audio
R573, 53_display R602, 54_controller_chip R654). -/
def Obligations.StepKeepsInvariant : Prop :=
  ∀ s t : State, s.Inv → step s = .next t → t.Inv

/-- The machine right after power-on has the invariant; that its line buffer and its sample buffer are empty
is the model's choice (10_state R90, log 2). -/
def Obligations.PowerOnHasInvariant : Prop := State.reset.Inv

/-- A step is one or more loop steps of the spec, one bus cycle at a time, whatever its outcome: the grouping of
the bus cycles changes nothing (log 1). And both take the agents in the loop's order: with an event due one
event is popped and given, at its own tick, to the handler of its kind, and what that yields is pushed; else a
busy sprite device makes a micro-step; in neither case does the CPU make a bus cycle or change a register; a
full sample buffer then ends the run. A loop step makes one bus cycle at most (55_system R700 to R702, R706,
R710, R717, 51_timers R531, 53_display R604, 70_reset R802). -/
def Obligations.StepIsLoopSteps : Prop :=
  ∀ s : State,
    (∃ n, loopRun (n + 1) s = step s) ∧
    (∀ t, loopStep s = .next t → t.busLog.length ≤ s.busLog.length + 1) ∧
    (s.runExit = none →
      let due := ∃ e, peekEarliestTick s.queue = some e ∧ e ≤ s.now
      let full (t : State) : Prop := t.sampling.active = true ∧ t.sampling.idx = t.sampling.buf.length
      let goesTo (t : State) : Prop :=
        let t' := { t with runExit := if full t then some .audioFull else none }
        step s = .next t' ∧ loopStep s = .next t'
      (due →
        let r := popEarliest s.tieCount s.queue
        let x := { s with queue := r.2.1, tieCount := r.2.2 }
        let runs (y : Yield) : Prop := goesTo { y.1 with queue := y.2.foldl (fun q e => push e q) y.1.queue }
        match r.1.kind with
        | .none => False
        | .timer n => ∀ h : n < 12, runs (fireAction ⟨n, h⟩ r.1.tick x)
        | .audioSample => runs (audioSample x)
        | .displayDma => runs (displayDma r.1.tick x)
        | .resetRelease => runs ({ x with resetLine := false }, [])) ∧
      (¬due → s.suzy.busy = true → goesTo (spriteMicroStep s)) ∧
      (due ∨ s.suzy.busy = true → ∀ t, step s = .next t → t.busLog = s.busLog ∧ t.cpu.regs = s.cpu.regs))

/-- From a state with the invariant a step never faults and, while the run goes on, always answers (60_exceptions
R740, R760, 30_encoding R182). That a step after the run has ended is refused, until the host runs it again, is the
model's choice (log 10). -/
def Obligations.StepsEndOnlyAsTheRulesSay : Prop :=
  ∀ s : State, s.Inv →
    (s.runExit = none → ∃ t, step s = .next t) ∧ (s.runExit ≠ none → step s = .refused .runExited)

/-- A step never turns time back, adds to the outputs only, and leaves alone the boot ROM, the parameters
and what only the host sets; and a number of ticks is added as it is wherever the sum is within the 64 bits
(10_state R60, 55_system R705, R708, R714, R715, 20_memory R105). -/
def Obligations.StepOnlyMovesForward : Prop :=
  (∀ (t : Tick) (d : Nat), t ≤ advanceTick t d ∧
    (t.toNat + d < 2 ^ 64 → (advanceTick t d).toNat = t.toNat + d)) ∧
  ∀ s t : State, step s = .next t →
    s.now ≤ t.now ∧ s.video <+: t.video ∧ s.serialOut <+: t.serialOut ∧ s.busLog <+: t.busLog ∧
    s.cpu.trace <+: t.cpu.trace ∧
    t.rom = s.rom ∧ t.params = s.params ∧ t.traps = s.traps ∧ t.nmiIn = s.nmiIn ∧ t.ioIn = s.ioIn
end

