-- ==== Sys2Proof/Laws/Memory.lean ====
section
/-! SUPPORT. The laws of memory: a read after a write, the bytes a write leaves alone, and the canonical
form, which every memory operation keeps. -/

namespace Sys2Proof.Machine

theorem Memory.get?_put_same (m : List Host.Cell) (k : Nat) (v : Byte) :
    Memory.get? (Memory.put m k v) k = some v := by
  induction m with
  | nil => simp [Memory.put, Memory.get?]
  | cons c m ih =>
    obtain ⟨a, w⟩ := c
    simp only [Memory.put]
    split
    · simp [Memory.get?]
    · split
      · simp [Memory.get?]
      · rename_i h
        simp [Memory.get?, h, ih]

theorem Memory.get?_put_ne (m : List Host.Cell) {k j : Nat} (v : Byte) (h : j ≠ k) :
    Memory.get? (Memory.put m k v) j = Memory.get? m j := by
  induction m with
  | nil => simp [Memory.put, Memory.get?, h]
  | cons c m ih =>
    obtain ⟨a, w⟩ := c
    simp only [Memory.put]
    split
    · simp [Memory.get?, h]
    · split
      · rename_i hk
        simp [Memory.get?, h, ← hk]
      · simp [Memory.get?, ih]

theorem Memory.wfFrom_put (size : Nat) (m : List Host.Cell) (lo k : Nat) (v : Byte)
    (h : Memory.wfFrom size lo m = true) (hl : lo ≤ k) (hs : k < size) :
    Memory.wfFrom size lo (Memory.put m k v) = true := by
  induction m generalizing lo with
  | nil => simp [Memory.put, Memory.wfFrom, hl, hs]
  | cons c m ih =>
    obtain ⟨a, w⟩ := c
    simp only [Memory.wfFrom, Bool.and_eq_true, decide_eq_true_eq] at h
    simp only [Memory.put]
    split
    · rename_i hk
      simp only [Memory.wfFrom, Bool.and_eq_true, decide_eq_true_eq]
      exact ⟨⟨hl, hs⟩, ⟨⟨by omega, h.1.2⟩, h.2⟩⟩
    · split
      · rename_i hk
        subst hk
        simp only [Memory.wfFrom, Bool.and_eq_true, decide_eq_true_eq]
        exact h
      · simp only [Memory.wfFrom, Bool.and_eq_true, decide_eq_true_eq]
        exact ⟨h.1, ih _ h.2 (by omega)⟩

/-- Listing a byte keeps the canonical form. -/
theorem Memory.wf_put {size : Nat} {m : List Host.Cell} {k : Nat} (v : Byte)
    (h : Memory.wf size m = true) (hk : k < size) : Memory.wf size (Memory.put m k v) = true :=
  Memory.wfFrom_put size m 0 k v h (Nat.zero_le k) hk

/-- A RAM write keeps the canonical form. -/
theorem ramWrite_wf {m : List Host.Cell} (a : Addr) (v : Byte) (h : Memory.wf 65536 m = true) :
    Memory.wf 65536 (ramWrite m a v) = true := Memory.wf_put v h a.isLt

/-- A read after a write of the same address gives the byte written. -/
@[simp] theorem ramRead_ramWrite_same (m : List Host.Cell) (a : Addr) (v : Byte) :
    ramRead (ramWrite m a v) a = v := by
  simp [ramRead, ramWrite, Memory.get?_put_same]

/-- A write leaves every other address alone. -/
theorem ramRead_ramWrite_ne (m : List Host.Cell) {a b : Addr} (v : Byte) (h : b ≠ a) :
    ramRead (ramWrite m a v) b = ramRead m b := by
  have hn : b.toNat ≠ a.toNat := fun e => h (BitVec.eq_of_toNat_eq e)
  simp [ramRead, ramWrite, Memory.get?_put_ne _ _ hn]

/-- A write at a plain address keeps the canonical form. -/
theorem State.storedRam_wf {s : State} (a : Addr) (v : Byte) (h : Memory.wf 65536 s.ram = true) :
    Memory.wf 65536 (s.storedRam a v) = true := by
  unfold State.storedRam
  split
  · exact ramWrite_wf a v h
  · exact h

/-- A store writes its own byte only. -/
theorem StoresOnly.of_storedRam {s t : State} {a : Addr} {v : Byte} (h : t.ram = s.storedRam a v) :
    StoresOnly s t a v := by
  refine ⟨h, fun b hb => ?_, fun hr => ?_⟩
  · rw [h]
    unfold State.storedRam
    split
    · exact ramRead_ramWrite_ne _ _ hb
    · rfl
  · rw [h]
    simp [State.storedRam, hr]

end Sys2Proof.Machine
end

