-- ==== Sys2Proof/Laws/State.lean ====
section
/-! SUPPORT. One lemma per field per named update of the state and of the CPU, true by `rfl`, so that no proof
unfolds an update. -/

namespace Sys2Proof.Machine

/-! ### `State.setTimer` -/

@[simp] theorem State.setTimer_params (n : Fin 12) (u : TimerUnit) (s : State) :
    (s.setTimer n u).params = s.params := rfl
@[simp] theorem State.setTimer_cpu (n : Fin 12) (u : TimerUnit) (s : State) :
    (s.setTimer n u).cpu = s.cpu := rfl
@[simp] theorem State.setTimer_now (n : Fin 12) (u : TimerUnit) (s : State) :
    (s.setTimer n u).now = s.now := rfl
@[simp] theorem State.setTimer_ram (n : Fin 12) (u : TimerUnit) (s : State) :
    (s.setTimer n u).ram = s.ram := rfl
@[simp] theorem State.setTimer_rom (n : Fin 12) (u : TimerUnit) (s : State) :
    (s.setTimer n u).rom = s.rom := rfl
@[simp] theorem State.setTimer_mapctl (n : Fin 12) (u : TimerUnit) (s : State) :
    (s.setTimer n u).mapctl = s.mapctl := rfl
@[simp] theorem State.setTimer_queue (n : Fin 12) (u : TimerUnit) (s : State) :
    (s.setTimer n u).queue = s.queue := rfl
@[simp] theorem State.setTimer_sampling (n : Fin 12) (u : TimerUnit) (s : State) :
    (s.setTimer n u).sampling = s.sampling := rfl
@[simp] theorem State.setTimer_resetDeferred (n : Fin 12) (u : TimerUnit) (s : State) :
    (s.setTimer n u).resetDeferred = s.resetDeferred := rfl
@[simp] theorem State.setTimer_resetLine (n : Fin 12) (u : TimerUnit) (s : State) :
    (s.setTimer n u).resetLine = s.resetLine := rfl
@[simp] theorem State.setTimer_suzy (n : Fin 12) (u : TimerUnit) (s : State) :
    (s.setTimer n u).suzy = s.suzy := rfl
@[simp] theorem State.setTimer_traps (n : Fin 12) (u : TimerUnit) (s : State) :
    (s.setTimer n u).traps = s.traps := rfl
@[simp] theorem State.setTimer_nmiIn (n : Fin 12) (u : TimerUnit) (s : State) :
    (s.setTimer n u).nmiIn = s.nmiIn := rfl
@[simp] theorem State.setTimer_ioIn (n : Fin 12) (u : TimerUnit) (s : State) :
    (s.setTimer n u).ioIn = s.ioIn := rfl
@[simp] theorem State.setTimer_prevBus (n : Fin 12) (u : TimerUnit) (s : State) :
    (s.setTimer n u).prevBus = s.prevBus := rfl
@[simp] theorem State.setTimer_timers (n : Fin 12) (u : TimerUnit) (s : State) :
    (s.setTimer n u).timers = s.timers.set n u := rfl
@[simp] theorem State.setTimer_audio (n : Fin 12) (u : TimerUnit) (s : State) :
    (s.setTimer n u).audio = s.audio := rfl
@[simp] theorem State.setTimer_display (n : Fin 12) (u : TimerUnit) (s : State) :
    (s.setTimer n u).display = s.display := rfl
@[simp] theorem State.setTimer_irqLatch (n : Fin 12) (u : TimerUnit) (s : State) :
    (s.setTimer n u).irqLatch = s.irqLatch := rfl
@[simp] theorem State.setTimer_serial (n : Fin 12) (u : TimerUnit) (s : State) :
    (s.setTimer n u).serial = s.serial := rfl
@[simp] theorem State.setTimer_ioDir (n : Fin 12) (u : TimerUnit) (s : State) :
    (s.setTimer n u).ioDir = s.ioDir := rfl
@[simp] theorem State.setTimer_ioDat (n : Fin 12) (u : TimerUnit) (s : State) :
    (s.setTimer n u).ioDat = s.ioDat := rfl
@[simp] theorem State.setTimer_atten (n : Fin 12) (u : TimerUnit) (s : State) :
    (s.setTimer n u).atten = s.atten := rfl
@[simp] theorem State.setTimer_mpan (n : Fin 12) (u : TimerUnit) (s : State) :
    (s.setTimer n u).mpan = s.mpan := rfl
@[simp] theorem State.setTimer_mstereo (n : Fin 12) (u : TimerUnit) (s : State) :
    (s.setTimer n u).mstereo = s.mstereo := rfl
@[simp] theorem State.setTimer_green (n : Fin 12) (u : TimerUnit) (s : State) :
    (s.setTimer n u).green = s.green := rfl
@[simp] theorem State.setTimer_bluered (n : Fin 12) (u : TimerUnit) (s : State) :
    (s.setTimer n u).bluered = s.bluered := rfl
@[simp] theorem State.setTimer_video (n : Fin 12) (u : TimerUnit) (s : State) :
    (s.setTimer n u).video = s.video := rfl
@[simp] theorem State.setTimer_serialOut (n : Fin 12) (u : TimerUnit) (s : State) :
    (s.setTimer n u).serialOut = s.serialOut := rfl
@[simp] theorem State.setTimer_runExit (n : Fin 12) (u : TimerUnit) (s : State) :
    (s.setTimer n u).runExit = s.runExit := rfl
@[simp] theorem State.setTimer_tieCount (n : Fin 12) (u : TimerUnit) (s : State) :
    (s.setTimer n u).tieCount = s.tieCount := rfl
@[simp] theorem State.setTimer_busLog (n : Fin 12) (u : TimerUnit) (s : State) :
    (s.setTimer n u).busLog = s.busLog := rfl

/-! ### `State.updateAudio` -/

@[simp] theorem State.updateAudio_params (n : Fin 4) (f : AudioChannel → AudioChannel) (s : State) :
    (s.updateAudio n f).params = s.params := rfl
@[simp] theorem State.updateAudio_cpu (n : Fin 4) (f : AudioChannel → AudioChannel) (s : State) :
    (s.updateAudio n f).cpu = s.cpu := rfl
@[simp] theorem State.updateAudio_now (n : Fin 4) (f : AudioChannel → AudioChannel) (s : State) :
    (s.updateAudio n f).now = s.now := rfl
@[simp] theorem State.updateAudio_ram (n : Fin 4) (f : AudioChannel → AudioChannel) (s : State) :
    (s.updateAudio n f).ram = s.ram := rfl
@[simp] theorem State.updateAudio_rom (n : Fin 4) (f : AudioChannel → AudioChannel) (s : State) :
    (s.updateAudio n f).rom = s.rom := rfl
@[simp] theorem State.updateAudio_mapctl (n : Fin 4) (f : AudioChannel → AudioChannel) (s : State) :
    (s.updateAudio n f).mapctl = s.mapctl := rfl
@[simp] theorem State.updateAudio_queue (n : Fin 4) (f : AudioChannel → AudioChannel) (s : State) :
    (s.updateAudio n f).queue = s.queue := rfl
@[simp] theorem State.updateAudio_sampling (n : Fin 4) (f : AudioChannel → AudioChannel) (s : State) :
    (s.updateAudio n f).sampling = s.sampling := rfl
@[simp] theorem State.updateAudio_resetDeferred (n : Fin 4) (f : AudioChannel → AudioChannel) (s : State) :
    (s.updateAudio n f).resetDeferred = s.resetDeferred := rfl
@[simp] theorem State.updateAudio_resetLine (n : Fin 4) (f : AudioChannel → AudioChannel) (s : State) :
    (s.updateAudio n f).resetLine = s.resetLine := rfl
@[simp] theorem State.updateAudio_suzy (n : Fin 4) (f : AudioChannel → AudioChannel) (s : State) :
    (s.updateAudio n f).suzy = s.suzy := rfl
@[simp] theorem State.updateAudio_traps (n : Fin 4) (f : AudioChannel → AudioChannel) (s : State) :
    (s.updateAudio n f).traps = s.traps := rfl
@[simp] theorem State.updateAudio_nmiIn (n : Fin 4) (f : AudioChannel → AudioChannel) (s : State) :
    (s.updateAudio n f).nmiIn = s.nmiIn := rfl
@[simp] theorem State.updateAudio_ioIn (n : Fin 4) (f : AudioChannel → AudioChannel) (s : State) :
    (s.updateAudio n f).ioIn = s.ioIn := rfl
@[simp] theorem State.updateAudio_prevBus (n : Fin 4) (f : AudioChannel → AudioChannel) (s : State) :
    (s.updateAudio n f).prevBus = s.prevBus := rfl
@[simp] theorem State.updateAudio_timers (n : Fin 4) (f : AudioChannel → AudioChannel) (s : State) :
    (s.updateAudio n f).timers = s.timers := rfl
@[simp] theorem State.updateAudio_audio (n : Fin 4) (f : AudioChannel → AudioChannel) (s : State) :
    (s.updateAudio n f).audio = s.audio.set n (f (s.audio.get n)) := rfl
@[simp] theorem State.updateAudio_display (n : Fin 4) (f : AudioChannel → AudioChannel) (s : State) :
    (s.updateAudio n f).display = s.display := rfl
@[simp] theorem State.updateAudio_irqLatch (n : Fin 4) (f : AudioChannel → AudioChannel) (s : State) :
    (s.updateAudio n f).irqLatch = s.irqLatch := rfl
@[simp] theorem State.updateAudio_serial (n : Fin 4) (f : AudioChannel → AudioChannel) (s : State) :
    (s.updateAudio n f).serial = s.serial := rfl
@[simp] theorem State.updateAudio_ioDir (n : Fin 4) (f : AudioChannel → AudioChannel) (s : State) :
    (s.updateAudio n f).ioDir = s.ioDir := rfl
@[simp] theorem State.updateAudio_ioDat (n : Fin 4) (f : AudioChannel → AudioChannel) (s : State) :
    (s.updateAudio n f).ioDat = s.ioDat := rfl
@[simp] theorem State.updateAudio_atten (n : Fin 4) (f : AudioChannel → AudioChannel) (s : State) :
    (s.updateAudio n f).atten = s.atten := rfl
@[simp] theorem State.updateAudio_mpan (n : Fin 4) (f : AudioChannel → AudioChannel) (s : State) :
    (s.updateAudio n f).mpan = s.mpan := rfl
@[simp] theorem State.updateAudio_mstereo (n : Fin 4) (f : AudioChannel → AudioChannel) (s : State) :
    (s.updateAudio n f).mstereo = s.mstereo := rfl
@[simp] theorem State.updateAudio_green (n : Fin 4) (f : AudioChannel → AudioChannel) (s : State) :
    (s.updateAudio n f).green = s.green := rfl
@[simp] theorem State.updateAudio_bluered (n : Fin 4) (f : AudioChannel → AudioChannel) (s : State) :
    (s.updateAudio n f).bluered = s.bluered := rfl
@[simp] theorem State.updateAudio_video (n : Fin 4) (f : AudioChannel → AudioChannel) (s : State) :
    (s.updateAudio n f).video = s.video := rfl
@[simp] theorem State.updateAudio_serialOut (n : Fin 4) (f : AudioChannel → AudioChannel) (s : State) :
    (s.updateAudio n f).serialOut = s.serialOut := rfl
@[simp] theorem State.updateAudio_runExit (n : Fin 4) (f : AudioChannel → AudioChannel) (s : State) :
    (s.updateAudio n f).runExit = s.runExit := rfl
@[simp] theorem State.updateAudio_tieCount (n : Fin 4) (f : AudioChannel → AudioChannel) (s : State) :
    (s.updateAudio n f).tieCount = s.tieCount := rfl
@[simp] theorem State.updateAudio_busLog (n : Fin 4) (f : AudioChannel → AudioChannel) (s : State) :
    (s.updateAudio n f).busLog = s.busLog := rfl

/-! ### `State.sink` -/

@[simp] theorem State.sink_params (k : VideoCall) (s : State) : (s.sink k).params = s.params := rfl
@[simp] theorem State.sink_cpu (k : VideoCall) (s : State) : (s.sink k).cpu = s.cpu := rfl
@[simp] theorem State.sink_now (k : VideoCall) (s : State) : (s.sink k).now = s.now := rfl
@[simp] theorem State.sink_ram (k : VideoCall) (s : State) : (s.sink k).ram = s.ram := rfl
@[simp] theorem State.sink_rom (k : VideoCall) (s : State) : (s.sink k).rom = s.rom := rfl
@[simp] theorem State.sink_mapctl (k : VideoCall) (s : State) : (s.sink k).mapctl = s.mapctl := rfl
@[simp] theorem State.sink_queue (k : VideoCall) (s : State) : (s.sink k).queue = s.queue := rfl
@[simp] theorem State.sink_sampling (k : VideoCall) (s : State) :
    (s.sink k).sampling = s.sampling := rfl
@[simp] theorem State.sink_resetDeferred (k : VideoCall) (s : State) :
    (s.sink k).resetDeferred = s.resetDeferred := rfl
@[simp] theorem State.sink_resetLine (k : VideoCall) (s : State) :
    (s.sink k).resetLine = s.resetLine := rfl
@[simp] theorem State.sink_suzy (k : VideoCall) (s : State) : (s.sink k).suzy = s.suzy := rfl
@[simp] theorem State.sink_traps (k : VideoCall) (s : State) : (s.sink k).traps = s.traps := rfl
@[simp] theorem State.sink_nmiIn (k : VideoCall) (s : State) : (s.sink k).nmiIn = s.nmiIn := rfl
@[simp] theorem State.sink_ioIn (k : VideoCall) (s : State) : (s.sink k).ioIn = s.ioIn := rfl
@[simp] theorem State.sink_prevBus (k : VideoCall) (s : State) :
    (s.sink k).prevBus = s.prevBus := rfl
@[simp] theorem State.sink_timers (k : VideoCall) (s : State) : (s.sink k).timers = s.timers := rfl
@[simp] theorem State.sink_audio (k : VideoCall) (s : State) : (s.sink k).audio = s.audio := rfl
@[simp] theorem State.sink_display (k : VideoCall) (s : State) :
    (s.sink k).display = s.display := rfl
@[simp] theorem State.sink_irqLatch (k : VideoCall) (s : State) :
    (s.sink k).irqLatch = s.irqLatch := rfl
@[simp] theorem State.sink_serial (k : VideoCall) (s : State) : (s.sink k).serial = s.serial := rfl
@[simp] theorem State.sink_ioDir (k : VideoCall) (s : State) : (s.sink k).ioDir = s.ioDir := rfl
@[simp] theorem State.sink_ioDat (k : VideoCall) (s : State) : (s.sink k).ioDat = s.ioDat := rfl
@[simp] theorem State.sink_atten (k : VideoCall) (s : State) : (s.sink k).atten = s.atten := rfl
@[simp] theorem State.sink_mpan (k : VideoCall) (s : State) : (s.sink k).mpan = s.mpan := rfl
@[simp] theorem State.sink_mstereo (k : VideoCall) (s : State) :
    (s.sink k).mstereo = s.mstereo := rfl
@[simp] theorem State.sink_green (k : VideoCall) (s : State) : (s.sink k).green = s.green := rfl
@[simp] theorem State.sink_bluered (k : VideoCall) (s : State) :
    (s.sink k).bluered = s.bluered := rfl
@[simp] theorem State.sink_video (k : VideoCall) (s : State) :
    (s.sink k).video = s.video ++ [k] := rfl
@[simp] theorem State.sink_serialOut (k : VideoCall) (s : State) :
    (s.sink k).serialOut = s.serialOut := rfl
@[simp] theorem State.sink_runExit (k : VideoCall) (s : State) :
    (s.sink k).runExit = s.runExit := rfl
@[simp] theorem State.sink_tieCount (k : VideoCall) (s : State) :
    (s.sink k).tieCount = s.tieCount := rfl
@[simp] theorem State.sink_busLog (k : VideoCall) (s : State) : (s.sink k).busLog = s.busLog := rfl

/-! ### `State.cancelDma` -/

@[simp] theorem State.cancelDma_params (s : State) : (s.cancelDma).params = s.params := rfl
@[simp] theorem State.cancelDma_cpu (s : State) : (s.cancelDma).cpu = s.cpu := rfl
@[simp] theorem State.cancelDma_now (s : State) : (s.cancelDma).now = s.now := rfl
@[simp] theorem State.cancelDma_ram (s : State) : (s.cancelDma).ram = s.ram := rfl
@[simp] theorem State.cancelDma_rom (s : State) : (s.cancelDma).rom = s.rom := rfl
@[simp] theorem State.cancelDma_mapctl (s : State) : (s.cancelDma).mapctl = s.mapctl := rfl
@[simp] theorem State.cancelDma_queue (s : State) :
    (s.cancelDma).queue = cancel .displayDma s.queue := rfl
@[simp] theorem State.cancelDma_sampling (s : State) : (s.cancelDma).sampling = s.sampling := rfl
@[simp] theorem State.cancelDma_resetDeferred (s : State) :
    (s.cancelDma).resetDeferred = s.resetDeferred := rfl
@[simp] theorem State.cancelDma_resetLine (s : State) : (s.cancelDma).resetLine = s.resetLine := rfl
@[simp] theorem State.cancelDma_suzy (s : State) : (s.cancelDma).suzy = s.suzy := rfl
@[simp] theorem State.cancelDma_traps (s : State) : (s.cancelDma).traps = s.traps := rfl
@[simp] theorem State.cancelDma_nmiIn (s : State) : (s.cancelDma).nmiIn = s.nmiIn := rfl
@[simp] theorem State.cancelDma_ioIn (s : State) : (s.cancelDma).ioIn = s.ioIn := rfl
@[simp] theorem State.cancelDma_prevBus (s : State) : (s.cancelDma).prevBus = s.prevBus := rfl
@[simp] theorem State.cancelDma_timers (s : State) : (s.cancelDma).timers = s.timers := rfl
@[simp] theorem State.cancelDma_audio (s : State) : (s.cancelDma).audio = s.audio := rfl
@[simp] theorem State.cancelDma_display (s : State) : (s.cancelDma).display = s.display := rfl
@[simp] theorem State.cancelDma_irqLatch (s : State) : (s.cancelDma).irqLatch = s.irqLatch := rfl
@[simp] theorem State.cancelDma_serial (s : State) : (s.cancelDma).serial = s.serial := rfl
@[simp] theorem State.cancelDma_ioDir (s : State) : (s.cancelDma).ioDir = s.ioDir := rfl
@[simp] theorem State.cancelDma_ioDat (s : State) : (s.cancelDma).ioDat = s.ioDat := rfl
@[simp] theorem State.cancelDma_atten (s : State) : (s.cancelDma).atten = s.atten := rfl
@[simp] theorem State.cancelDma_mpan (s : State) : (s.cancelDma).mpan = s.mpan := rfl
@[simp] theorem State.cancelDma_mstereo (s : State) : (s.cancelDma).mstereo = s.mstereo := rfl
@[simp] theorem State.cancelDma_green (s : State) : (s.cancelDma).green = s.green := rfl
@[simp] theorem State.cancelDma_bluered (s : State) : (s.cancelDma).bluered = s.bluered := rfl
@[simp] theorem State.cancelDma_video (s : State) : (s.cancelDma).video = s.video := rfl
@[simp] theorem State.cancelDma_serialOut (s : State) : (s.cancelDma).serialOut = s.serialOut := rfl
@[simp] theorem State.cancelDma_runExit (s : State) : (s.cancelDma).runExit = s.runExit := rfl
@[simp] theorem State.cancelDma_tieCount (s : State) : (s.cancelDma).tieCount = s.tieCount := rfl
@[simp] theorem State.cancelDma_busLog (s : State) : (s.cancelDma).busLog = s.busLog := rfl

/-! ### `State.writeRam` -/

@[simp] theorem State.writeRam_params (a : Addr) (v : Byte) (s : State) :
    (s.writeRam a v).params = s.params := rfl
@[simp] theorem State.writeRam_cpu (a : Addr) (v : Byte) (s : State) :
    (s.writeRam a v).cpu = s.cpu := rfl
@[simp] theorem State.writeRam_now (a : Addr) (v : Byte) (s : State) :
    (s.writeRam a v).now = s.now := rfl
@[simp] theorem State.writeRam_ram (a : Addr) (v : Byte) (s : State) :
    (s.writeRam a v).ram = ramWrite s.ram a v := rfl
@[simp] theorem State.writeRam_rom (a : Addr) (v : Byte) (s : State) :
    (s.writeRam a v).rom = s.rom := rfl
@[simp] theorem State.writeRam_mapctl (a : Addr) (v : Byte) (s : State) :
    (s.writeRam a v).mapctl = s.mapctl := rfl
@[simp] theorem State.writeRam_queue (a : Addr) (v : Byte) (s : State) :
    (s.writeRam a v).queue = s.queue := rfl
@[simp] theorem State.writeRam_sampling (a : Addr) (v : Byte) (s : State) :
    (s.writeRam a v).sampling = s.sampling := rfl
@[simp] theorem State.writeRam_resetDeferred (a : Addr) (v : Byte) (s : State) :
    (s.writeRam a v).resetDeferred = s.resetDeferred := rfl
@[simp] theorem State.writeRam_resetLine (a : Addr) (v : Byte) (s : State) :
    (s.writeRam a v).resetLine = s.resetLine := rfl
@[simp] theorem State.writeRam_suzy (a : Addr) (v : Byte) (s : State) :
    (s.writeRam a v).suzy = s.suzy := rfl
@[simp] theorem State.writeRam_traps (a : Addr) (v : Byte) (s : State) :
    (s.writeRam a v).traps = s.traps := rfl
@[simp] theorem State.writeRam_nmiIn (a : Addr) (v : Byte) (s : State) :
    (s.writeRam a v).nmiIn = s.nmiIn := rfl
@[simp] theorem State.writeRam_ioIn (a : Addr) (v : Byte) (s : State) :
    (s.writeRam a v).ioIn = s.ioIn := rfl
@[simp] theorem State.writeRam_prevBus (a : Addr) (v : Byte) (s : State) :
    (s.writeRam a v).prevBus = s.prevBus := rfl
@[simp] theorem State.writeRam_timers (a : Addr) (v : Byte) (s : State) :
    (s.writeRam a v).timers = s.timers := rfl
@[simp] theorem State.writeRam_audio (a : Addr) (v : Byte) (s : State) :
    (s.writeRam a v).audio = s.audio := rfl
@[simp] theorem State.writeRam_display (a : Addr) (v : Byte) (s : State) :
    (s.writeRam a v).display = s.display := rfl
@[simp] theorem State.writeRam_irqLatch (a : Addr) (v : Byte) (s : State) :
    (s.writeRam a v).irqLatch = s.irqLatch := rfl
@[simp] theorem State.writeRam_serial (a : Addr) (v : Byte) (s : State) :
    (s.writeRam a v).serial = s.serial := rfl
@[simp] theorem State.writeRam_ioDir (a : Addr) (v : Byte) (s : State) :
    (s.writeRam a v).ioDir = s.ioDir := rfl
@[simp] theorem State.writeRam_ioDat (a : Addr) (v : Byte) (s : State) :
    (s.writeRam a v).ioDat = s.ioDat := rfl
@[simp] theorem State.writeRam_atten (a : Addr) (v : Byte) (s : State) :
    (s.writeRam a v).atten = s.atten := rfl
@[simp] theorem State.writeRam_mpan (a : Addr) (v : Byte) (s : State) :
    (s.writeRam a v).mpan = s.mpan := rfl
@[simp] theorem State.writeRam_mstereo (a : Addr) (v : Byte) (s : State) :
    (s.writeRam a v).mstereo = s.mstereo := rfl
@[simp] theorem State.writeRam_green (a : Addr) (v : Byte) (s : State) :
    (s.writeRam a v).green = s.green := rfl
@[simp] theorem State.writeRam_bluered (a : Addr) (v : Byte) (s : State) :
    (s.writeRam a v).bluered = s.bluered := rfl
@[simp] theorem State.writeRam_video (a : Addr) (v : Byte) (s : State) :
    (s.writeRam a v).video = s.video := rfl
@[simp] theorem State.writeRam_serialOut (a : Addr) (v : Byte) (s : State) :
    (s.writeRam a v).serialOut = s.serialOut := rfl
@[simp] theorem State.writeRam_runExit (a : Addr) (v : Byte) (s : State) :
    (s.writeRam a v).runExit = s.runExit := rfl
@[simp] theorem State.writeRam_tieCount (a : Addr) (v : Byte) (s : State) :
    (s.writeRam a v).tieCount = s.tieCount := rfl
@[simp] theorem State.writeRam_busLog (a : Addr) (v : Byte) (s : State) :
    (s.writeRam a v).busLog = s.busLog := rfl

/-! ### `State.stored` -/

@[simp] theorem State.stored_params (a : Addr) (v : Byte) (s : State) :
    (s.stored a v).params = s.params := rfl
@[simp] theorem State.stored_cpu (a : Addr) (v : Byte) (s : State) :
    (s.stored a v).cpu = s.cpu := rfl
@[simp] theorem State.stored_now (a : Addr) (v : Byte) (s : State) :
    (s.stored a v).now = s.now := rfl
@[simp] theorem State.stored_ram (a : Addr) (v : Byte) (s : State) :
    (s.stored a v).ram = s.storedRam a v := rfl
@[simp] theorem State.stored_rom (a : Addr) (v : Byte) (s : State) :
    (s.stored a v).rom = s.rom := rfl
@[simp] theorem State.stored_mapctl (a : Addr) (v : Byte) (s : State) :
    (s.stored a v).mapctl = s.mapctl := rfl
@[simp] theorem State.stored_queue (a : Addr) (v : Byte) (s : State) :
    (s.stored a v).queue = s.queue := rfl
@[simp] theorem State.stored_sampling (a : Addr) (v : Byte) (s : State) :
    (s.stored a v).sampling = s.sampling := rfl
@[simp] theorem State.stored_resetDeferred (a : Addr) (v : Byte) (s : State) :
    (s.stored a v).resetDeferred = s.resetDeferred := rfl
@[simp] theorem State.stored_resetLine (a : Addr) (v : Byte) (s : State) :
    (s.stored a v).resetLine = s.resetLine := rfl
@[simp] theorem State.stored_suzy (a : Addr) (v : Byte) (s : State) :
    (s.stored a v).suzy = s.suzy := rfl
@[simp] theorem State.stored_traps (a : Addr) (v : Byte) (s : State) :
    (s.stored a v).traps = s.traps := rfl
@[simp] theorem State.stored_nmiIn (a : Addr) (v : Byte) (s : State) :
    (s.stored a v).nmiIn = s.nmiIn := rfl
@[simp] theorem State.stored_ioIn (a : Addr) (v : Byte) (s : State) :
    (s.stored a v).ioIn = s.ioIn := rfl
@[simp] theorem State.stored_prevBus (a : Addr) (v : Byte) (s : State) :
    (s.stored a v).prevBus = s.prevBus := rfl
@[simp] theorem State.stored_timers (a : Addr) (v : Byte) (s : State) :
    (s.stored a v).timers = s.timers := rfl
@[simp] theorem State.stored_audio (a : Addr) (v : Byte) (s : State) :
    (s.stored a v).audio = s.audio := rfl
@[simp] theorem State.stored_display (a : Addr) (v : Byte) (s : State) :
    (s.stored a v).display = s.display := rfl
@[simp] theorem State.stored_irqLatch (a : Addr) (v : Byte) (s : State) :
    (s.stored a v).irqLatch = s.irqLatch := rfl
@[simp] theorem State.stored_serial (a : Addr) (v : Byte) (s : State) :
    (s.stored a v).serial = s.serial := rfl
@[simp] theorem State.stored_ioDir (a : Addr) (v : Byte) (s : State) :
    (s.stored a v).ioDir = s.ioDir := rfl
@[simp] theorem State.stored_ioDat (a : Addr) (v : Byte) (s : State) :
    (s.stored a v).ioDat = s.ioDat := rfl
@[simp] theorem State.stored_atten (a : Addr) (v : Byte) (s : State) :
    (s.stored a v).atten = s.atten := rfl
@[simp] theorem State.stored_mpan (a : Addr) (v : Byte) (s : State) :
    (s.stored a v).mpan = s.mpan := rfl
@[simp] theorem State.stored_mstereo (a : Addr) (v : Byte) (s : State) :
    (s.stored a v).mstereo = s.mstereo := rfl
@[simp] theorem State.stored_green (a : Addr) (v : Byte) (s : State) :
    (s.stored a v).green = s.green := rfl
@[simp] theorem State.stored_bluered (a : Addr) (v : Byte) (s : State) :
    (s.stored a v).bluered = s.bluered := rfl
@[simp] theorem State.stored_video (a : Addr) (v : Byte) (s : State) :
    (s.stored a v).video = s.video := rfl
@[simp] theorem State.stored_serialOut (a : Addr) (v : Byte) (s : State) :
    (s.stored a v).serialOut = s.serialOut := rfl
@[simp] theorem State.stored_runExit (a : Addr) (v : Byte) (s : State) :
    (s.stored a v).runExit = s.runExit := rfl
@[simp] theorem State.stored_tieCount (a : Addr) (v : Byte) (s : State) :
    (s.stored a v).tieCount = s.tieCount := rfl
@[simp] theorem State.stored_busLog (a : Addr) (v : Byte) (s : State) :
    (s.stored a v).busLog = s.busLog := rfl

/-! ### `State.trapBreak` -/

@[simp] theorem State.trapBreak_params (b : Bool) (s : State) :
    (s.trapBreak b).params = s.params := rfl
@[simp] theorem State.trapBreak_cpu (b : Bool) (s : State) :
    (s.trapBreak b).cpu = { s.cpu with brk := { s.cpu.brk with fromTrap := s.cpu.brk.fromTrap || b } } := rfl
@[simp] theorem State.trapBreak_now (b : Bool) (s : State) : (s.trapBreak b).now = s.now := rfl
@[simp] theorem State.trapBreak_ram (b : Bool) (s : State) : (s.trapBreak b).ram = s.ram := rfl
@[simp] theorem State.trapBreak_rom (b : Bool) (s : State) : (s.trapBreak b).rom = s.rom := rfl
@[simp] theorem State.trapBreak_mapctl (b : Bool) (s : State) :
    (s.trapBreak b).mapctl = s.mapctl := rfl
@[simp] theorem State.trapBreak_queue (b : Bool) (s : State) :
    (s.trapBreak b).queue = s.queue := rfl
@[simp] theorem State.trapBreak_sampling (b : Bool) (s : State) :
    (s.trapBreak b).sampling = s.sampling := rfl
@[simp] theorem State.trapBreak_resetDeferred (b : Bool) (s : State) :
    (s.trapBreak b).resetDeferred = s.resetDeferred := rfl
@[simp] theorem State.trapBreak_resetLine (b : Bool) (s : State) :
    (s.trapBreak b).resetLine = s.resetLine := rfl
@[simp] theorem State.trapBreak_suzy (b : Bool) (s : State) : (s.trapBreak b).suzy = s.suzy := rfl
@[simp] theorem State.trapBreak_traps (b : Bool) (s : State) :
    (s.trapBreak b).traps = s.traps := rfl
@[simp] theorem State.trapBreak_nmiIn (b : Bool) (s : State) :
    (s.trapBreak b).nmiIn = s.nmiIn := rfl
@[simp] theorem State.trapBreak_ioIn (b : Bool) (s : State) : (s.trapBreak b).ioIn = s.ioIn := rfl
@[simp] theorem State.trapBreak_prevBus (b : Bool) (s : State) :
    (s.trapBreak b).prevBus = s.prevBus := rfl
@[simp] theorem State.trapBreak_timers (b : Bool) (s : State) :
    (s.trapBreak b).timers = s.timers := rfl
@[simp] theorem State.trapBreak_audio (b : Bool) (s : State) :
    (s.trapBreak b).audio = s.audio := rfl
@[simp] theorem State.trapBreak_display (b : Bool) (s : State) :
    (s.trapBreak b).display = s.display := rfl
@[simp] theorem State.trapBreak_irqLatch (b : Bool) (s : State) :
    (s.trapBreak b).irqLatch = s.irqLatch := rfl
@[simp] theorem State.trapBreak_serial (b : Bool) (s : State) :
    (s.trapBreak b).serial = s.serial := rfl
@[simp] theorem State.trapBreak_ioDir (b : Bool) (s : State) :
    (s.trapBreak b).ioDir = s.ioDir := rfl
@[simp] theorem State.trapBreak_ioDat (b : Bool) (s : State) :
    (s.trapBreak b).ioDat = s.ioDat := rfl
@[simp] theorem State.trapBreak_atten (b : Bool) (s : State) :
    (s.trapBreak b).atten = s.atten := rfl
@[simp] theorem State.trapBreak_mpan (b : Bool) (s : State) : (s.trapBreak b).mpan = s.mpan := rfl
@[simp] theorem State.trapBreak_mstereo (b : Bool) (s : State) :
    (s.trapBreak b).mstereo = s.mstereo := rfl
@[simp] theorem State.trapBreak_green (b : Bool) (s : State) :
    (s.trapBreak b).green = s.green := rfl
@[simp] theorem State.trapBreak_bluered (b : Bool) (s : State) :
    (s.trapBreak b).bluered = s.bluered := rfl
@[simp] theorem State.trapBreak_video (b : Bool) (s : State) :
    (s.trapBreak b).video = s.video := rfl
@[simp] theorem State.trapBreak_serialOut (b : Bool) (s : State) :
    (s.trapBreak b).serialOut = s.serialOut := rfl
@[simp] theorem State.trapBreak_runExit (b : Bool) (s : State) :
    (s.trapBreak b).runExit = s.runExit := rfl
@[simp] theorem State.trapBreak_tieCount (b : Bool) (s : State) :
    (s.trapBreak b).tieCount = s.tieCount := rfl
@[simp] theorem State.trapBreak_busLog (b : Bool) (s : State) :
    (s.trapBreak b).busLog = s.busLog := rfl

/-! ### `State.refuse` -/

@[simp] theorem State.refuse_params (a : Addr) (s : State) :
    (s.refuse a).params = s.params := rfl
@[simp] theorem State.refuse_cpu (a : Addr) (s : State) :
    (s.refuse a).cpu = s.cpu := rfl
@[simp] theorem State.refuse_now (a : Addr) (s : State) : (s.refuse a).now = s.now := rfl
@[simp] theorem State.refuse_ram (a : Addr) (s : State) : (s.refuse a).ram = s.ram := rfl
@[simp] theorem State.refuse_rom (a : Addr) (s : State) : (s.refuse a).rom = s.rom := rfl
@[simp] theorem State.refuse_mapctl (a : Addr) (s : State) :
    (s.refuse a).mapctl = s.mapctl := rfl
@[simp] theorem State.refuse_queue (a : Addr) (s : State) :
    (s.refuse a).queue = s.queue := rfl
@[simp] theorem State.refuse_sampling (a : Addr) (s : State) :
    (s.refuse a).sampling = s.sampling := rfl
@[simp] theorem State.refuse_resetDeferred (a : Addr) (s : State) :
    (s.refuse a).resetDeferred = s.resetDeferred := rfl
@[simp] theorem State.refuse_resetLine (a : Addr) (s : State) :
    (s.refuse a).resetLine = s.resetLine := rfl
@[simp] theorem State.refuse_suzy (a : Addr) (s : State) : (s.refuse a).suzy = s.suzy := rfl
@[simp] theorem State.refuse_traps (a : Addr) (s : State) :
    (s.refuse a).traps = s.traps := rfl
@[simp] theorem State.refuse_nmiIn (a : Addr) (s : State) :
    (s.refuse a).nmiIn = s.nmiIn := rfl
@[simp] theorem State.refuse_ioIn (a : Addr) (s : State) : (s.refuse a).ioIn = s.ioIn := rfl
@[simp] theorem State.refuse_prevBus (a : Addr) (s : State) :
    (s.refuse a).prevBus = s.prevBus := rfl
@[simp] theorem State.refuse_timers (a : Addr) (s : State) :
    (s.refuse a).timers = s.timers := rfl
@[simp] theorem State.refuse_audio (a : Addr) (s : State) :
    (s.refuse a).audio = s.audio := rfl
@[simp] theorem State.refuse_display (a : Addr) (s : State) :
    (s.refuse a).display = s.display := rfl
@[simp] theorem State.refuse_irqLatch (a : Addr) (s : State) :
    (s.refuse a).irqLatch = s.irqLatch := rfl
@[simp] theorem State.refuse_serial (a : Addr) (s : State) :
    (s.refuse a).serial = s.serial := rfl
@[simp] theorem State.refuse_ioDir (a : Addr) (s : State) :
    (s.refuse a).ioDir = s.ioDir := rfl
@[simp] theorem State.refuse_ioDat (a : Addr) (s : State) :
    (s.refuse a).ioDat = s.ioDat := rfl
@[simp] theorem State.refuse_atten (a : Addr) (s : State) :
    (s.refuse a).atten = s.atten := rfl
@[simp] theorem State.refuse_mpan (a : Addr) (s : State) : (s.refuse a).mpan = s.mpan := rfl
@[simp] theorem State.refuse_mstereo (a : Addr) (s : State) :
    (s.refuse a).mstereo = s.mstereo := rfl
@[simp] theorem State.refuse_green (a : Addr) (s : State) :
    (s.refuse a).green = s.green := rfl
@[simp] theorem State.refuse_bluered (a : Addr) (s : State) :
    (s.refuse a).bluered = s.bluered := rfl
@[simp] theorem State.refuse_video (a : Addr) (s : State) :
    (s.refuse a).video = s.video := rfl
@[simp] theorem State.refuse_serialOut (a : Addr) (s : State) :
    (s.refuse a).serialOut = s.serialOut := rfl
@[simp] theorem State.refuse_runExit (a : Addr) (s : State) :
    (s.refuse a).runExit = some (.refused a) := rfl
@[simp] theorem State.refuse_tieCount (a : Addr) (s : State) :
    (s.refuse a).tieCount = s.tieCount := rfl
@[simp] theorem State.refuse_busLog (a : Addr) (s : State) :
    (s.refuse a).busLog = s.busLog := rfl

/-! ### `State.recordAccess` -/

@[simp] theorem State.recordAccess_params (req : BusReq) (v : Byte) (c : Tick) (s : State) :
    (s.recordAccess req v c).params = s.params := rfl
@[simp] theorem State.recordAccess_cpu (req : BusReq) (v : Byte) (c : Tick) (s : State) :
    (s.recordAccess req v c).cpu = s.cpu := rfl
@[simp] theorem State.recordAccess_now (req : BusReq) (v : Byte) (c : Tick) (s : State) :
    (s.recordAccess req v c).now = c := rfl
@[simp] theorem State.recordAccess_ram (req : BusReq) (v : Byte) (c : Tick) (s : State) :
    (s.recordAccess req v c).ram = s.ram := rfl
@[simp] theorem State.recordAccess_rom (req : BusReq) (v : Byte) (c : Tick) (s : State) :
    (s.recordAccess req v c).rom = s.rom := rfl
@[simp] theorem State.recordAccess_mapctl (req : BusReq) (v : Byte) (c : Tick) (s : State) :
    (s.recordAccess req v c).mapctl = s.mapctl := rfl
@[simp] theorem State.recordAccess_queue (req : BusReq) (v : Byte) (c : Tick) (s : State) :
    (s.recordAccess req v c).queue = s.queue := rfl
@[simp] theorem State.recordAccess_sampling (req : BusReq) (v : Byte) (c : Tick) (s : State) :
    (s.recordAccess req v c).sampling = s.sampling := rfl
@[simp] theorem State.recordAccess_resetDeferred (req : BusReq) (v : Byte) (c : Tick) (s : State) :
    (s.recordAccess req v c).resetDeferred = s.resetDeferred := rfl
@[simp] theorem State.recordAccess_resetLine (req : BusReq) (v : Byte) (c : Tick) (s : State) :
    (s.recordAccess req v c).resetLine = s.resetLine := rfl
@[simp] theorem State.recordAccess_suzy (req : BusReq) (v : Byte) (c : Tick) (s : State) :
    (s.recordAccess req v c).suzy = s.suzy := rfl
@[simp] theorem State.recordAccess_traps (req : BusReq) (v : Byte) (c : Tick) (s : State) :
    (s.recordAccess req v c).traps = s.traps := rfl
@[simp] theorem State.recordAccess_nmiIn (req : BusReq) (v : Byte) (c : Tick) (s : State) :
    (s.recordAccess req v c).nmiIn = s.nmiIn := rfl
@[simp] theorem State.recordAccess_ioIn (req : BusReq) (v : Byte) (c : Tick) (s : State) :
    (s.recordAccess req v c).ioIn = s.ioIn := rfl
@[simp] theorem State.recordAccess_prevBus (req : BusReq) (v : Byte) (c : Tick) (s : State) :
    (s.recordAccess req v c).prevBus = some (req.kind, req.addr) := rfl
@[simp] theorem State.recordAccess_timers (req : BusReq) (v : Byte) (c : Tick) (s : State) :
    (s.recordAccess req v c).timers = s.timers := rfl
@[simp] theorem State.recordAccess_audio (req : BusReq) (v : Byte) (c : Tick) (s : State) :
    (s.recordAccess req v c).audio = s.audio := rfl
@[simp] theorem State.recordAccess_display (req : BusReq) (v : Byte) (c : Tick) (s : State) :
    (s.recordAccess req v c).display = s.display := rfl
@[simp] theorem State.recordAccess_irqLatch (req : BusReq) (v : Byte) (c : Tick) (s : State) :
    (s.recordAccess req v c).irqLatch = s.irqLatch := rfl
@[simp] theorem State.recordAccess_serial (req : BusReq) (v : Byte) (c : Tick) (s : State) :
    (s.recordAccess req v c).serial = s.serial := rfl
@[simp] theorem State.recordAccess_ioDir (req : BusReq) (v : Byte) (c : Tick) (s : State) :
    (s.recordAccess req v c).ioDir = s.ioDir := rfl
@[simp] theorem State.recordAccess_ioDat (req : BusReq) (v : Byte) (c : Tick) (s : State) :
    (s.recordAccess req v c).ioDat = s.ioDat := rfl
@[simp] theorem State.recordAccess_atten (req : BusReq) (v : Byte) (c : Tick) (s : State) :
    (s.recordAccess req v c).atten = s.atten := rfl
@[simp] theorem State.recordAccess_mpan (req : BusReq) (v : Byte) (c : Tick) (s : State) :
    (s.recordAccess req v c).mpan = s.mpan := rfl
@[simp] theorem State.recordAccess_mstereo (req : BusReq) (v : Byte) (c : Tick) (s : State) :
    (s.recordAccess req v c).mstereo = s.mstereo := rfl
@[simp] theorem State.recordAccess_green (req : BusReq) (v : Byte) (c : Tick) (s : State) :
    (s.recordAccess req v c).green = s.green := rfl
@[simp] theorem State.recordAccess_bluered (req : BusReq) (v : Byte) (c : Tick) (s : State) :
    (s.recordAccess req v c).bluered = s.bluered := rfl
@[simp] theorem State.recordAccess_video (req : BusReq) (v : Byte) (c : Tick) (s : State) :
    (s.recordAccess req v c).video = s.video := rfl
@[simp] theorem State.recordAccess_serialOut (req : BusReq) (v : Byte) (c : Tick) (s : State) :
    (s.recordAccess req v c).serialOut = s.serialOut := rfl
@[simp] theorem State.recordAccess_runExit (req : BusReq) (v : Byte) (c : Tick) (s : State) :
    (s.recordAccess req v c).runExit = s.runExit := rfl
@[simp] theorem State.recordAccess_tieCount (req : BusReq) (v : Byte) (c : Tick) (s : State) :
    (s.recordAccess req v c).tieCount = s.tieCount := rfl
@[simp] theorem State.recordAccess_busLog (req : BusReq) (v : Byte) (c : Tick) (s : State) :
    (s.recordAccess req v c).busLog = s.busLog ++ [⟨req.kind, req.addr, v⟩] := rfl

/-! ### `Cpu.goto` -/

@[simp] theorem Cpu.goto_a (k : Nat) (c : Cpu) : (c.goto k).a = c.a := rfl
@[simp] theorem Cpu.goto_x (k : Nat) (c : Cpu) : (c.goto k).x = c.x := rfl
@[simp] theorem Cpu.goto_y (k : Nat) (c : Cpu) : (c.goto k).y = c.y := rfl
@[simp] theorem Cpu.goto_sp (k : Nat) (c : Cpu) : (c.goto k).sp = c.sp := rfl
@[simp] theorem Cpu.goto_pc (k : Nat) (c : Cpu) : (c.goto k).pc = c.pc := rfl
@[simp] theorem Cpu.goto_flags (k : Nat) (c : Cpu) : (c.goto k).flags = c.flags := rfl
@[simp] theorem Cpu.goto_pendNmi (k : Nat) (c : Cpu) : (c.goto k).pendNmi = c.pendNmi := rfl
@[simp] theorem Cpu.goto_pendReset (k : Nat) (c : Cpu) : (c.goto k).pendReset = c.pendReset := rfl
@[simp] theorem Cpu.goto_opcode (k : Nat) (c : Cpu) : (c.goto k).opcode = c.opcode := rfl
@[simp] theorem Cpu.goto_cycle (k : Nat) (c : Cpu) : (c.goto k).cycle = k := rfl
@[simp] theorem Cpu.goto_ea (k : Nat) (c : Cpu) : (c.goto k).ea = c.ea := rfl
@[simp] theorem Cpu.goto_ptr (k : Nat) (c : Cpu) : (c.goto k).ptr = c.ptr := rfl
@[simp] theorem Cpu.goto_data (k : Nat) (c : Cpu) : (c.goto k).data = c.data := rfl
@[simp] theorem Cpu.goto_crossed (k : Nat) (c : Cpu) : (c.goto k).crossed = c.crossed := rfl
@[simp] theorem Cpu.goto_pendingReq (k : Nat) (c : Cpu) :
    (c.goto k).pendingReq = c.pendingReq := rfl
@[simp] theorem Cpu.goto_mode (k : Nat) (c : Cpu) : (c.goto k).mode = c.mode := rfl
@[simp] theorem Cpu.goto_brk (k : Nat) (c : Cpu) : (c.goto k).brk = c.brk := rfl
@[simp] theorem Cpu.goto_trace (k : Nat) (c : Cpu) : (c.goto k).trace = c.trace := rfl

/-! ### `Cpu.finish` -/

@[simp] theorem Cpu.finish_a (c : Cpu) : (c.finish).a = c.a := rfl
@[simp] theorem Cpu.finish_x (c : Cpu) : (c.finish).x = c.x := rfl
@[simp] theorem Cpu.finish_y (c : Cpu) : (c.finish).y = c.y := rfl
@[simp] theorem Cpu.finish_sp (c : Cpu) : (c.finish).sp = c.sp := rfl
@[simp] theorem Cpu.finish_pc (c : Cpu) : (c.finish).pc = c.pc := rfl
@[simp] theorem Cpu.finish_flags (c : Cpu) : (c.finish).flags = c.flags := rfl
@[simp] theorem Cpu.finish_pendNmi (c : Cpu) : (c.finish).pendNmi = c.pendNmi := rfl
@[simp] theorem Cpu.finish_pendReset (c : Cpu) : (c.finish).pendReset = c.pendReset := rfl
@[simp] theorem Cpu.finish_opcode (c : Cpu) : (c.finish).opcode = c.opcode := rfl
@[simp] theorem Cpu.finish_cycle (c : Cpu) : (c.finish).cycle = 0 := rfl
@[simp] theorem Cpu.finish_ea (c : Cpu) : (c.finish).ea = c.ea := rfl
@[simp] theorem Cpu.finish_ptr (c : Cpu) : (c.finish).ptr = c.ptr := rfl
@[simp] theorem Cpu.finish_data (c : Cpu) : (c.finish).data = c.data := rfl
@[simp] theorem Cpu.finish_crossed (c : Cpu) : (c.finish).crossed = c.crossed := rfl
@[simp] theorem Cpu.finish_pendingReq (c : Cpu) : (c.finish).pendingReq = c.pendingReq := rfl
@[simp] theorem Cpu.finish_mode (c : Cpu) : (c.finish).mode = c.mode := rfl
@[simp] theorem Cpu.finish_brk (c : Cpu) :
    (c.finish).brk = { c.brk with evalPending := true } := rfl
@[simp] theorem Cpu.finish_trace (c : Cpu) : (c.finish).trace = c.trace := rfl

/-! ### `Cpu.latchIndexed` -/

@[simp] theorem Cpu.latchIndexed_a (base : Addr) (i : Byte) (c : Cpu) :
    (c.latchIndexed base i).a = c.a := rfl
@[simp] theorem Cpu.latchIndexed_x (base : Addr) (i : Byte) (c : Cpu) :
    (c.latchIndexed base i).x = c.x := rfl
@[simp] theorem Cpu.latchIndexed_y (base : Addr) (i : Byte) (c : Cpu) :
    (c.latchIndexed base i).y = c.y := rfl
@[simp] theorem Cpu.latchIndexed_sp (base : Addr) (i : Byte) (c : Cpu) :
    (c.latchIndexed base i).sp = c.sp := rfl
@[simp] theorem Cpu.latchIndexed_pc (base : Addr) (i : Byte) (c : Cpu) :
    (c.latchIndexed base i).pc = c.pc := rfl
@[simp] theorem Cpu.latchIndexed_flags (base : Addr) (i : Byte) (c : Cpu) :
    (c.latchIndexed base i).flags = c.flags := rfl
@[simp] theorem Cpu.latchIndexed_pendNmi (base : Addr) (i : Byte) (c : Cpu) :
    (c.latchIndexed base i).pendNmi = c.pendNmi := rfl
@[simp] theorem Cpu.latchIndexed_pendReset (base : Addr) (i : Byte) (c : Cpu) :
    (c.latchIndexed base i).pendReset = c.pendReset := rfl
@[simp] theorem Cpu.latchIndexed_opcode (base : Addr) (i : Byte) (c : Cpu) :
    (c.latchIndexed base i).opcode = c.opcode := rfl
@[simp] theorem Cpu.latchIndexed_cycle (base : Addr) (i : Byte) (c : Cpu) :
    (c.latchIndexed base i).cycle = c.cycle := rfl
@[simp] theorem Cpu.latchIndexed_ea (base : Addr) (i : Byte) (c : Cpu) :
    (c.latchIndexed base i).ea = indexed base i := rfl
@[simp] theorem Cpu.latchIndexed_ptr (base : Addr) (i : Byte) (c : Cpu) :
    (c.latchIndexed base i).ptr = c.ptr := rfl
@[simp] theorem Cpu.latchIndexed_data (base : Addr) (i : Byte) (c : Cpu) :
    (c.latchIndexed base i).data = c.data := rfl
@[simp] theorem Cpu.latchIndexed_crossed (base : Addr) (i : Byte) (c : Cpu) :
    (c.latchIndexed base i).crossed = pageCrossed base (indexed base i) := rfl
@[simp] theorem Cpu.latchIndexed_pendingReq (base : Addr) (i : Byte) (c : Cpu) :
    (c.latchIndexed base i).pendingReq = c.pendingReq := rfl
@[simp] theorem Cpu.latchIndexed_mode (base : Addr) (i : Byte) (c : Cpu) :
    (c.latchIndexed base i).mode = c.mode := rfl
@[simp] theorem Cpu.latchIndexed_brk (base : Addr) (i : Byte) (c : Cpu) :
    (c.latchIndexed base i).brk = c.brk := rfl
@[simp] theorem Cpu.latchIndexed_trace (base : Addr) (i : Byte) (c : Cpu) :
    (c.latchIndexed base i).trace = c.trace := rfl

/-! ### `Cpu.latchBranch` -/

@[simp] theorem Cpu.latchBranch_a (off : Byte) (c : Cpu) : (c.latchBranch off).a = c.a := rfl
@[simp] theorem Cpu.latchBranch_x (off : Byte) (c : Cpu) : (c.latchBranch off).x = c.x := rfl
@[simp] theorem Cpu.latchBranch_y (off : Byte) (c : Cpu) : (c.latchBranch off).y = c.y := rfl
@[simp] theorem Cpu.latchBranch_sp (off : Byte) (c : Cpu) : (c.latchBranch off).sp = c.sp := rfl
@[simp] theorem Cpu.latchBranch_pc (off : Byte) (c : Cpu) : (c.latchBranch off).pc = c.pc := rfl
@[simp] theorem Cpu.latchBranch_flags (off : Byte) (c : Cpu) :
    (c.latchBranch off).flags = c.flags := rfl
@[simp] theorem Cpu.latchBranch_pendNmi (off : Byte) (c : Cpu) :
    (c.latchBranch off).pendNmi = c.pendNmi := rfl
@[simp] theorem Cpu.latchBranch_pendReset (off : Byte) (c : Cpu) :
    (c.latchBranch off).pendReset = c.pendReset := rfl
@[simp] theorem Cpu.latchBranch_opcode (off : Byte) (c : Cpu) :
    (c.latchBranch off).opcode = c.opcode := rfl
@[simp] theorem Cpu.latchBranch_cycle (off : Byte) (c : Cpu) :
    (c.latchBranch off).cycle = c.cycle := rfl
@[simp] theorem Cpu.latchBranch_ea (off : Byte) (c : Cpu) :
    (c.latchBranch off).ea = branchTarget c.pc off := rfl
@[simp] theorem Cpu.latchBranch_ptr (off : Byte) (c : Cpu) : (c.latchBranch off).ptr = c.ptr := rfl
@[simp] theorem Cpu.latchBranch_data (off : Byte) (c : Cpu) :
    (c.latchBranch off).data = c.data := rfl
@[simp] theorem Cpu.latchBranch_crossed (off : Byte) (c : Cpu) :
    (c.latchBranch off).crossed = pageCrossed c.pc (branchTarget c.pc off) := rfl
@[simp] theorem Cpu.latchBranch_pendingReq (off : Byte) (c : Cpu) :
    (c.latchBranch off).pendingReq = c.pendingReq := rfl
@[simp] theorem Cpu.latchBranch_mode (off : Byte) (c : Cpu) :
    (c.latchBranch off).mode = c.mode := rfl
@[simp] theorem Cpu.latchBranch_brk (off : Byte) (c : Cpu) : (c.latchBranch off).brk = c.brk := rfl
@[simp] theorem Cpu.latchBranch_trace (off : Byte) (c : Cpu) :
    (c.latchBranch off).trace = c.trace := rfl

@[simp] theorem Yield.commit_params (y : Yield) : (Yield.commit y).params = y.1.params := rfl
@[simp] theorem Yield.commit_cpu (y : Yield) : (Yield.commit y).cpu = y.1.cpu := rfl
@[simp] theorem Yield.commit_now (y : Yield) : (Yield.commit y).now = y.1.now := rfl
@[simp] theorem Yield.commit_ram (y : Yield) : (Yield.commit y).ram = y.1.ram := rfl
@[simp] theorem Yield.commit_rom (y : Yield) : (Yield.commit y).rom = y.1.rom := rfl
@[simp] theorem Yield.commit_mapctl (y : Yield) : (Yield.commit y).mapctl = y.1.mapctl := rfl
@[simp] theorem Yield.commit_queue (y : Yield) :
    (Yield.commit y).queue = pushAll y.2 y.1.queue := rfl
@[simp] theorem Yield.commit_sampling (y : Yield) : (Yield.commit y).sampling = y.1.sampling := rfl
@[simp] theorem Yield.commit_resetDeferred (y : Yield) :
    (Yield.commit y).resetDeferred = y.1.resetDeferred := rfl
@[simp] theorem Yield.commit_resetLine (y : Yield) :
    (Yield.commit y).resetLine = y.1.resetLine := rfl
@[simp] theorem Yield.commit_suzy (y : Yield) : (Yield.commit y).suzy = y.1.suzy := rfl
@[simp] theorem Yield.commit_traps (y : Yield) : (Yield.commit y).traps = y.1.traps := rfl
@[simp] theorem Yield.commit_nmiIn (y : Yield) : (Yield.commit y).nmiIn = y.1.nmiIn := rfl
@[simp] theorem Yield.commit_ioIn (y : Yield) : (Yield.commit y).ioIn = y.1.ioIn := rfl
@[simp] theorem Yield.commit_prevBus (y : Yield) : (Yield.commit y).prevBus = y.1.prevBus := rfl
@[simp] theorem Yield.commit_timers (y : Yield) : (Yield.commit y).timers = y.1.timers := rfl
@[simp] theorem Yield.commit_audio (y : Yield) : (Yield.commit y).audio = y.1.audio := rfl
@[simp] theorem Yield.commit_display (y : Yield) : (Yield.commit y).display = y.1.display := rfl
@[simp] theorem Yield.commit_irqLatch (y : Yield) : (Yield.commit y).irqLatch = y.1.irqLatch := rfl
@[simp] theorem Yield.commit_serial (y : Yield) : (Yield.commit y).serial = y.1.serial := rfl
@[simp] theorem Yield.commit_ioDir (y : Yield) : (Yield.commit y).ioDir = y.1.ioDir := rfl
@[simp] theorem Yield.commit_ioDat (y : Yield) : (Yield.commit y).ioDat = y.1.ioDat := rfl
@[simp] theorem Yield.commit_atten (y : Yield) : (Yield.commit y).atten = y.1.atten := rfl
@[simp] theorem Yield.commit_mpan (y : Yield) : (Yield.commit y).mpan = y.1.mpan := rfl
@[simp] theorem Yield.commit_mstereo (y : Yield) : (Yield.commit y).mstereo = y.1.mstereo := rfl
@[simp] theorem Yield.commit_green (y : Yield) : (Yield.commit y).green = y.1.green := rfl
@[simp] theorem Yield.commit_bluered (y : Yield) : (Yield.commit y).bluered = y.1.bluered := rfl
@[simp] theorem Yield.commit_video (y : Yield) : (Yield.commit y).video = y.1.video := rfl
@[simp] theorem Yield.commit_serialOut (y : Yield) :
    (Yield.commit y).serialOut = y.1.serialOut := rfl
@[simp] theorem Yield.commit_runExit (y : Yield) : (Yield.commit y).runExit = y.1.runExit := rfl
@[simp] theorem Yield.commit_tieCount (y : Yield) : (Yield.commit y).tieCount = y.1.tieCount := rfl
@[simp] theorem Yield.commit_busLog (y : Yield) : (Yield.commit y).busLog = y.1.busLog := rfl

end Sys2Proof.Machine
end

