-- ==== Sys2Proof/Laws/Bus.lean ====
section
/-! SUPPORT. What a bus cycle and a whole sequence do at plain addresses, undisturbed: `runSeq_path`. -/

namespace Sys2Proof.Machine

@[simp] theorem Res.bind_next {α β : Type} (a : α) (f : α → Res β) :
    Res.bind (.next a) f = f a := rfl
@[simp] theorem Res.bind_fault {α β : Type} (r : Fault) (f : α → Res β) :
    Res.bind (.fault r) f = .fault r := rfl
@[simp] theorem Res.bind_refused {α β : Type} (r : Refusal) (f : α → Res β) :
    Res.bind (.refused r) f = .refused r := rfl

/-- From an answer of `bind`, the answer it went on with. -/
theorem Res.bind_eq_next {α β : Type} {o : Res α} {f : α → Res β} {b : β}
    (h : o.bind f = .next b) : ∃ a, o = .next a ∧ f a = .next b := by
  cases o with
  | next a => exact ⟨a, rfl, h⟩
  | fault r => cases h
  | refused r => cases h

theorem lt_succ_of_not_last {t : Tick} (h : t ≠ BitVec.allOnes 64) : t < t + 1 := by
  have : t.toNat ≠ 2 ^ 64 - 1 := fun e => h (BitVec.eq_of_toNat_eq (by simpa using e))
  bv_omega

/-- The counter never decreases (10_state R60, 55_system R705). -/
theorem le_advanceTick (t : Tick) (d : Nat) : t ≤ advanceTick t d := by
  unfold advanceTick
  split
  · bv_omega
  split
  · exact BitVec.le_of_lt ‹_›
  split
  · exact BitVec.le_refl _
  · exact BitVec.le_of_lt (lt_succ_of_not_last ‹_›)

/-- Every latency is at least one tick, so the counter rises, but at the last tick there is (55_system R703). -/
theorem lt_advanceTick {t : Tick} {d : Nat} (hd : 0 < d) (ht : t ≠ BitVec.allOnes 64) : t < advanceTick t d := by
  unfold advanceTick
  split
  · bv_omega
  split
  · assumption
  · exact lt_succ_of_not_last ht

theorem le_completion (g : Target) (k : BusKind) (a : Addr) (prev : Option (BusKind × Addr)) (t : Tick) :
    t ≤ completion g k a prev t := by
  cases g <;> exact le_advanceTick ..

theorem afterCycles_le (s : State) (tr : List BusRecord) : s.now ≤ (s.afterCycles tr).1 := by
  unfold State.afterCycles
  have h : ∀ (tr : List BusRecord) (x : Tick × Option (BusKind × Addr)),
      x.1 ≤ (tr.foldl (tickStep s.mapctl) x).1 := by
    intro tr
    induction tr with
    | nil => exact fun x => BitVec.le_refl _
    | cons r tr ih =>
      intro x
      exact BitVec.le_trans (le_completion ..) (ih (tickStep s.mapctl x r))
  exact h tr (s.now, s.prevBus)

theorem applyTraps_untrapped (k : BusKind) (t : Tick) (a : Addr) (traps : List Trap) (v w : Byte)
    (h : untrapped traps ⟨k, a, w⟩ = true) : applyTraps k t a traps v = (v, false) := by
  induction traps with
  | nil => rfl
  | cons x xs ih =>
    simp only [untrapped, List.all_cons, Bool.and_eq_true, Bool.not_eq_true'] at h ih
    simp only [applyTraps, h.1]
    exact ih h.2

theorem State.trapBreak_false (s : State) : s.trapBreak false = s := by
  simp [State.trapBreak]

theorem plain_not_refused {mapctl : Byte} {a : Addr} (h : plain mapctl a = true) :
    refusedAccess mapctl a = false := by
  simp only [plain, Bool.or_eq_true, beq_iff_eq] at h
  rcases h with h | h <;> simp [refusedAccess, h]

/-- The record of a request at a plain address: the byte it writes, or the byte it reads. -/
def State.recordOf (s : State) : BusReq → BusRecord
  | .write a v => ⟨.write, a, v⟩
  | req => ⟨req.kind, req.addr, s.byteAt req.addr⟩

/-- RAM after a request at a plain address. -/
def State.ramAfter (s : State) : BusReq → List Host.Cell
  | .write a v => s.storedRam a v
  | _ => s.ram

/-- The whole of what a request at a plain address with no trap on it does. -/
theorem resolve_plain {s : State} {req : BusReq} (hp : plain s.mapctl req.addr = true)
    (hu : untrapped s.traps (s.recordOf req) = true) :
    resolve req s = ((s.recordOf req).value,
      { s with
        ram := s.ramAfter req
        now := completion (route s.mapctl req.addr) req.kind req.addr s.prevBus s.now
        prevBus := some (req.kind, req.addr)
        busLog := s.busLog ++ [s.recordOf req] }) := by
  simp only [plain, Bool.or_eq_true, beq_iff_eq] at hp
  cases req with
  | write a v =>
    have hv := applyTraps_untrapped .write s.now a s.traps v v (by simpa [State.recordOf] using hu)
    simp only [BusReq.addr] at hp
    rcases hp with h | h
    · simp [resolve, access, hv, h, BusReq.addr, busWrite, State.trapBreak_false, State.recordOf,
        State.ramAfter, State.storedRam, State.recordAccess, Yield.commit, pushAll, BusReq.kind,
        State.writeRam]
    · cases hpol : s.params.romWritePolicy <;>
        simp [resolve, access, hv, h, BusReq.addr, busWrite, State.trapBreak_false, State.recordOf,
          State.ramAfter, State.storedRam, State.recordAccess, Yield.commit, pushAll, BusReq.kind, hpol,
          State.writeRam]
  | fetchOpcode a | fetchOperand a | read a | discard a =>
    simp only [BusReq.addr] at hp
    rcases hp with h | h
    all_goals
      have hv := fun v => applyTraps_untrapped _ s.now a s.traps v _ hu
      simp only [BusReq.kind] at hv
      simp [resolve, access, hv, h, BusReq.addr, busValue, busReadEffect, State.trapBreak_false,
        State.recordOf, State.ramAfter, State.byteAt, State.recordAccess, Yield.commit, pushAll,
        BusReq.kind]

/-! ### One cycle and a whole sequence -/

/-- The CPU after the cycle a sequence gives, at a plain address. -/
def cpuAfter (q : Seq) (s : State) : Cpu :=
  { (q s.params s.cpu).done (s.recordOf (q s.params s.cpu).req).value s.cpu with pendingReq := none }

/-- The state after the cycle a sequence gives, at a plain address. -/
def plainNext (q : Seq) (s : State) : State :=
  let req := (q s.params s.cpu).req
  { s with
    cpu := cpuAfter q s
    ram := s.ramAfter req
    now := completion (route s.mapctl req.addr) req.kind req.addr s.prevBus s.now
    prevBus := some (req.kind, req.addr)
    busLog := s.busLog ++ [s.recordOf req] }

theorem State.recordOf_cpu (s : State) (c : Cpu) (req : BusReq) :
    State.recordOf { s with cpu := c } req = s.recordOf req := by cases req <;> rfl

theorem State.recordOf_kind (s : State) (req : BusReq) : (s.recordOf req).kind = req.kind := by
  cases req <;> rfl

theorem State.recordOf_addr (s : State) (req : BusReq) : (s.recordOf req).addr = req.addr := by
  cases req <;> rfl

/-- One bus cycle at a plain address with no trap on it. -/
theorem oneCycle_plain {q : Seq} {s : State} (ha : s.cpu.pendingReq = none)
    (hs : ¬(s.sampling.active = true ∧ s.sampling.idx = s.sampling.buf.length))
    (hp : plain s.mapctl (q s.params s.cpu).req.addr = true)
    (hu : untrapped s.traps (s.recordOf (q s.params s.cpu).req) = true) :
    oneCycle q s = .next (plainNext q s) := by
  have hc : ({ s.cpu with pendingReq := none } : Cpu) = s.cpu := by rw [← ha]
  simp only [oneCycle, Cpu.advance, ha, Res.bind_next]
  have hres := resolve_plain (s := { s with cpu :=
    { s.cpu with pendingReq := some (q s.params s.cpu).req } }) hp (by rw [State.recordOf_cpu]; exact hu)
  simp only [plain_not_refused hp, Bool.false_eq_true, if_false, hres, Res.bind_next, Cpu.respond, hc]
  have hset : ∀ t : State, t.sampling = s.sampling → t.settle = t := by
    intro t ht
    simp only [State.settle, ht]
    rw [if_neg]
    exact fun h => hs h.2
  rw [hset]
  · simp only [plainNext, cpuAfter, State.recordOf_cpu]
    cases (q s.params s.cpu).req <;> rfl
  · rfl

/-- Ready for a cycle and more: the cycle runs, and the state after it is ready for the rest. -/
theorem oneCycle_ready {q : Seq} {s : State} {r : BusRecord} {tr : List BusRecord}
    (h : Ready s (r :: tr)) (hr : s.recordOf (q s.params s.cpu).req = r) :
    oneCycle q s = .next (plainNext q s) ∧ Ready (plainNext q s) tr := by
  subst hr
  have hp := h.isPlain _ (List.mem_cons_self ..)
  have hu := h.isUntrapped _ (List.mem_cons_self ..)
  rw [State.recordOf_addr] at hp
  refine ⟨oneCycle_plain h.answered h.unsampled hp hu, ?_⟩
  refine ⟨h.running, h.idle, h.unsampled, rfl, fun r hm => h.isPlain r (List.mem_cons_of_mem _ hm),
    fun r hm => h.isUntrapped r (List.mem_cons_of_mem _ hm), fun e he => ?_⟩
  have := h.undisturbed e he
  simpa [State.afterCycles, plainNext, tickStep, State.recordOf_kind, State.recordOf_addr] using this

/-- In a ready state the loop gives the CPU its turn. -/
theorem Ready.cpuTurn {s : State} {tr : List BusRecord} (h : Ready s tr) : s.cpuTurn = true := by
  have hle := afterCycles_le s tr
  have hd : s.eventDue = false := by
    unfold State.eventDue
    split
    · rename_i e he
      have := h.undisturbed e he
      simp only [decide_eq_false_iff_not]
      bv_omega
    · rfl
  simp [State.cpuTurn, h.running, h.idle, hd]

/-- `tr` is the list of the cycles a sequence runs from `s` to its end in `t`. -/
def Path (q : Seq) : State → List BusRecord → State → Prop
  | s, [], t => t = s ∧ s.cpu.cycle = 0
  | s, r :: tr, t =>
    s.recordOf (q s.params s.cpu).req = r ∧ (tr = [] ∨ (cpuAfter q s).cycle ≠ 0) ∧
      Path q (plainNext q s) tr t

theorem burst_path {q : Seq} {tr : List BusRecord} {s t : State} {n : Nat} (h : Ready s tr)
    (hp : Path q s tr t) (hc : tr = [] ∨ s.cpu.cycle ≠ 0) (hn : tr.length ≤ n) :
    burst q n s = .next t := by
  induction tr generalizing s n with
  | nil =>
    obtain ⟨rfl, h0⟩ := hp
    cases n <;> simp [burst, h0]
  | cons r tr ih =>
    obtain ⟨hr, hc', hp⟩ := hp
    obtain ⟨ho, hn'⟩ := oneCycle_ready h hr
    cases n with
    | zero => simp at hn
    | succ n =>
      have hc0 : s.cpu.cycle ≠ 0 := by simpa using hc
      simp only [burst, hc0, h.cpuTurn, if_true, if_false, ho, Res.bind_next]
      exact ih hn' hp hc' (by simpa using hn)

/-- A sequence that is ready runs to its end. -/
theorem runSeq_path {q : Seq} {r : BusRecord} {tr : List BusRecord} {s t : State}
    (h : Ready s (r :: tr)) (hp : Path q s (r :: tr) t) (hn : tr.length ≤ 8) :
    runSeq q s = .next t := by
  obtain ⟨hr, hc', hp⟩ := hp
  obtain ⟨ho, hn'⟩ := oneCycle_ready h hr
  simp only [runSeq, ho, Res.bind_next]
  exact burst_path hn' hp hc' hn

end Sys2Proof.Machine
end

