-- ==== Sys2Proof/Laws/Run.lean ====
section
/-! SUPPORT. The induction over a step, once: a relation that every bus cycle and every other agent's turn keeps is
kept by `step` (`step_rel`), and what no cycle of a sequence touches (`SeqKeeps`). -/

namespace Sys2Proof.Machine

/-! ### What the cycles of a sequence leave alone -/

/-- The answer to a cycle of the sequence leaves alone the fields of the CPU that only a boundary or the bus
changes. -/
def SeqKeeps (q : Seq) : Prop :=
  ∀ (p : Params) (c : Cpu) (v : Byte), let d := (q p c).done v c
    d.opcode = c.opcode ∧ d.trace = c.trace ∧ d.pendNmi = c.pendNmi ∧ d.pendReset = c.pendReset

theorem operandCycle_done (c d : Cpu) (k : Byte → Cpu → Cpu) (v : Byte) :
    (operandCycle c k).done v d = k v { d with pc := d.pc + 1 } := rfl
theorem readCycle_done (a : Addr) (d : Cpu) (k : Byte → Cpu → Cpu) (v : Byte) :
    (readCycle a k).done v d = k v d := rfl
theorem dummyCycle_done (a : Addr) (d : Cpu) (k : Cpu → Cpu) (v : Byte) : (dummyCycle a k).done v d = k d := rfl
theorem writeCycle_done (a : Addr) (w : Byte) (d : Cpu) (k : Cpu → Cpu) (v : Byte) :
    (writeCycle a w k).done v d = k d := rfl
theorem pushCycle_done (c d : Cpu) (w : Byte) (k : Cpu → Cpu) (v : Byte) :
    (pushCycle c w k).done v d = k { d with sp := d.sp - 1 } := rfl
theorem pullCycle_done (c d : Cpu) (k : Byte → Cpu → Cpu) (v : Byte) :
    (pullCycle c k).done v d = k v { d with sp := d.sp + 1 } := rfl

/-- The operation of a read-class instruction leaves those fields alone. -/
def ReadOp.keeps (r : ReadOp) : Prop :=
  ∀ (v : Byte) (c : Cpu), let d := r.exec v c
    d.opcode = c.opcode ∧ d.trace = c.trace ∧ d.pendNmi = c.pendNmi ∧ d.pendReset = c.pendReset

theorem addrCycle_keeps (m : Mode) : SeqKeeps fun _ c => addrCycle m c := by
  intro p c v
  cases m <;> simp only [addrCycle]
  all_goals repeat' split
  all_goals exact ⟨rfl, rfl, rfl, rfl⟩

theorem impliedSeq_keeps {op : Cpu → Cpu}
    (h : ∀ c, (op c).opcode = c.opcode ∧ (op c).trace = c.trace ∧ (op c).pendNmi = c.pendNmi ∧
      (op c).pendReset = c.pendReset) : SeqKeeps (impliedSeq op) := fun _ c _ => h c

theorem readSeq_keeps (m : Mode) {r : ReadOp} (h : r.keeps) : SeqKeeps (readSeq m r) := by
  have ha : ∀ p v (c : Cpu), (r.answer p v c).opcode = c.opcode ∧ (r.answer p v c).trace = c.trace ∧
      (r.answer p v c).pendNmi = c.pendNmi ∧ (r.answer p v c).pendReset = c.pendReset := by
    intro p v c
    unfold ReadOp.answer
    split
    · exact ⟨rfl, rfl, rfl, rfl⟩
    · exact h v c
  have hm : SeqKeeps (memReadSeq m r) := by
    intro p c v
    simp only [memReadSeq, afterAddr]
    split
    · exact addrCycle_keeps m p c v
    · split
      · exact ha p v c
      · exact h c.data c
  have hi : SeqKeeps (immSeq r) := by
    intro p c v
    simp only [immSeq]
    split
    · exact ha p v { c with pc := c.pc + 1 }
    · exact ha p v { c with pc := c.pc + 1 }
    · exact h c.data c
  cases m <;> assumption

theorem writeSeq_keeps (m : Mode) (sv : Cpu → Byte) : SeqKeeps (writeSeq m sv) := by
  intro p c v
  simp only [writeSeq, afterAddr]
  split
  · exact addrCycle_keeps m p c v
  · exact ⟨rfl, rfl, rfl, rfl⟩

theorem rmwSeq_keeps (m : Mode) (always : Bool) (f : RmwOp) : SeqKeeps (rmwSeq m always f) := by
  have hm : SeqKeeps (memRmwSeq m always f) := by
    intro p c v
    simp only [memRmwSeq, afterAddr]
    split
    · exact addrCycle_keeps m p c v
    · split <;> exact ⟨rfl, rfl, rfl, rfl⟩
  have ha : SeqKeeps (accSeq f) := impliedSeq_keeps fun _ => ⟨rfl, rfl, rfl, rfl⟩
  cases m <;> assumption

theorem branchSeq_keeps (cond : Flags → Bool) : SeqKeeps (branchSeq cond) := by
  intro p c v
  simp only [branchSeq]
  split <;> simp only [operandCycle_done, dummyCycle_done] <;> (try split) <;> exact ⟨rfl, rfl, rfl, rfl⟩

theorem bitBranchSeq_keeps (n : Nat) (b : Bool) : SeqKeeps (bitBranchSeq n b) := by
  intro p c v
  simp only [bitBranchSeq]
  split <;> simp only [operandCycle_done, dummyCycle_done, readCycle_done] <;> (try split) <;>
    exact ⟨rfl, rfl, rfl, rfl⟩

theorem jmpSeq_keeps (m : Mode) : SeqKeeps (jmpSeq m) := by
  have hi : SeqKeeps (jmpIndSeq m) := by
    intro p c v
    simp only [jmpIndSeq]
    split <;> exact ⟨rfl, rfl, rfl, rfl⟩
  have ha : SeqKeeps jmpAbsSeq := by
    intro p c v
    simp only [jmpAbsSeq]
    split <;> exact ⟨rfl, rfl, rfl, rfl⟩
  cases m <;> assumption

theorem enterHandler_keeps (b : Bool) (vector : Addr) : SeqKeeps fun _ c => enterHandler b vector c := by
  intro p c v
  simp only [enterHandler]
  split <;> exact ⟨rfl, rfl, rfl, rfl⟩

theorem interruptSeqOf_keeps (k : SeqKind) : SeqKeeps (interruptSeqOf k) := by
  have hi : ∀ a, SeqKeeps (interruptSeq a) := by
    intro a p c v
    simp only [interruptSeq]
    split
    · exact ⟨rfl, rfl, rfl, rfl⟩
    · exact ⟨rfl, rfl, rfl, rfl⟩
    · exact enterHandler_keeps false a p c v
  have hr : SeqKeeps resetSeq := by
    intro p c v
    simp only [resetSeq]
    split <;> exact ⟨rfl, rfl, rfl, rfl⟩
  cases k <;> first | exact hr | exact hi _

theorem breakSeq_keeps : SeqKeeps breakSeq := by
  intro p c v
  simp only [breakSeq]
  split
  · simp only [operandCycle_done]
    split <;> exact ⟨rfl, rfl, rfl, rfl⟩
  · simp only [operandCycle_done]
    split <;> exact ⟨rfl, rfl, rfl, rfl⟩
  · exact enterHandler_keeps true irqVector p c v

theorem pushSeq_keeps (value : Cpu → Byte) : SeqKeeps (pushSeq value) := by
  intro p c v
  simp only [pushSeq]
  split <;> exact ⟨rfl, rfl, rfl, rfl⟩

theorem haltSeq_keeps (mode : CpuMode) : SeqKeeps (haltSeq mode) := by
  intro p c v
  simp only [haltSeq]
  split <;> exact ⟨rfl, rfl, rfl, rfl⟩

theorem pullSeq_keeps {f : Byte → Cpu → Cpu}
    (h : ∀ v c, (f v c).opcode = c.opcode ∧ (f v c).trace = c.trace ∧ (f v c).pendNmi = c.pendNmi ∧
      (f v c).pendReset = c.pendReset) : SeqKeeps (pullSeq f) := by
  intro p c v
  simp only [pullSeq]
  split
  · exact ⟨rfl, rfl, rfl, rfl⟩
  · exact ⟨rfl, rfl, rfl, rfl⟩
  · exact ⟨rfl, rfl, rfl, rfl⟩
  · exact h v { c with sp := c.sp + 1 }

/-- The same of every instruction's sequence. -/
theorem seqOf_keeps (i : Instr) : SeqKeeps (seqOf i) := by
  cases i
  case jsr | rts | rti | nop5C =>
    intro p c v
    simp only [seqOf, jsrSeq, rtsSeq, rtiSeq, jumpSubroutineSeq, returnSubroutineSeq, returnSeq, nop5CSeq]
    split <;> exact ⟨rfl, rfl, rfl, rfl⟩
  case jmp m => exact jmpSeq_keeps m
  case brk => exact breakSeq_keeps
  case lda | ldx | ldy | adc | sbc | and | ora | eor | cmp | cpx | cpy | nopImm | nopZp | nopZpX | nopAbs =>
    exact readSeq_keeps _ fun _ _ => ⟨rfl, rfl, rfl, rfl⟩
  case bit m =>
    refine readSeq_keeps _ fun _ _ => ?_
    simp only [bitOp]
    split <;> exact ⟨rfl, rfl, rfl, rfl⟩
  case sta | stx | sty | stz => exact writeSeq_keeps _ _
  case pha | php | phx | phy => exact pushSeq_keeps _
  case pla | plp | plx | ply => exact pullSeq_keeps fun _ _ => ⟨rfl, rfl, rfl, rfl⟩
  case wai | stp => exact haltSeq_keeps _
  case bpl | bmi | bvc | bvs | bcc | bcs | bne | beq | bra => exact branchSeq_keeps _
  case bbr0 | bbr1 | bbr2 | bbr3 | bbr4 | bbr5 | bbr6 | bbr7 | bbs0 | bbs1 | bbs2 | bbs3 | bbs4 | bbs5 | bbs6 |
    bbs7 => exact bitBranchSeq_keeps _ _
  case asl | lsr | rol | ror | inc | dec | tsb | trb | rmb0 | rmb1 | rmb2 | rmb3 | rmb4 | rmb5 | rmb6 | rmb7 |
    smb0 | smb1 | smb2 | smb3 | smb4 | smb5 | smb6 | smb7 => exact rmwSeq_keeps _ _ _
  all_goals exact impliedSeq_keeps fun _ => ⟨rfl, rfl, rfl, rfl⟩

/-! ### The meaning of an instruction is its sequence -/

/-- `exec` of a well-formed instruction runs its sequence; the one-cycle no-op is complete as it is. -/
theorem exec_eq_runSeq {i : Instr} (h : i.wf = true) (s : State) :
    exec i s = if i.oneCycle then .next { s with cpu := s.cpu.finish } else runSeq (seqOf i) s := by
  cases i <;> first
    | exact if_pos h
    | rfl

theorem runWf_next {wf : Bool} {q : Seq} {s t : State} (h : runWf wf q s = .next t) : wf = true := by
  unfold runWf at h
  split at h
  · assumption
  · cases h

/-- An instruction that answers a next state is well formed. -/
theorem wf_of_exec_next {i : Instr} {s t : State} (h : exec i s = .next t) : i.wf = true := by
  cases i
  case nopOne op =>
    change (if (Instr.nopOne op).wf then _ else _) = _ at h
    split at h
    · assumption
    · cases h
  all_goals first
    | rfl
    | exact runWf_next h

/-! ### The induction over a step -/

/-- A relation kept by every part of a step. -/
structure StepRel (R : State → State → Prop) : Prop where
  refl : ∀ s, R s s
  trans : ∀ {s t u}, R s t → R t u → R s u
  cycle : ∀ {q s t}, SeqKeeps q → oneCycle q s = .next t → R s t
  fetch : ∀ {s t}, oneCycle fetchSeq s = .next t → R s t
  finish : ∀ s, R s { s with cpu := s.cpu.finish }
  boundary : ∀ s, R s { s with cpu := (s.cpu.boundary s.params s.irqLine).2 }
  exit : ∀ s x, s.runExit = none → R s { s with runExit := x }
  idle : ∀ s, s.runExit = none → R s (idle s)
  event : ∀ {s t}, dispatchEvent s = .next t → R s t
  sprite : ∀ s, R s (spriteMicroStep s)

theorem StepRel.settle {R : State → State → Prop} (h : StepRel R) (s : State) : R s s.settle := by
  unfold State.settle
  split
  · rename_i hs
    exact h.exit s _ hs.1
  · exact h.refl _

theorem StepRel.burst {R : State → State → Prop} (h : StepRel R) {q : Seq} (hq : SeqKeeps q) (n : Nat)
    {s t : State} (hb : burst q n s = .next t) : R s t := by
  induction n generalizing s with
  | zero =>
    cases hb
    exact h.refl _
  | succ n ih =>
    unfold Machine.burst at hb
    split at hb
    · cases hb
      exact h.refl _
    · split at hb
      · obtain ⟨u, h1, h2⟩ := Res.bind_eq_next hb
        exact h.trans (h.cycle hq h1) (ih h2)
      · cases hb
        exact h.refl _

theorem StepRel.runSeq {R : State → State → Prop} (h : StepRel R) {q : Seq} (hq : SeqKeeps q)
    {s t : State} (hb : runSeq q s = .next t) : R s t := by
  obtain ⟨u, h1, h2⟩ := Res.bind_eq_next hb
  exact h.trans (h.cycle hq h1) (h.burst hq 8 h2)

theorem StepRel.exec {R : State → State → Prop} (h : StepRel R) {i : Instr} {s t : State}
    (he : exec i s = .next t) : R s t := by
  rw [exec_eq_runSeq (wf_of_exec_next he)] at he
  split at he
  · cases he
    exact h.finish s
  · exact h.runSeq (seqOf_keeps i) he

/-- A relation that every part of a step keeps is kept by the step. -/
theorem StepRel.step {R : State → State → Prop} (h : StepRel R) {s t : State} (hs : step s = .next t) :
    R s t := by
  unfold Machine.step at hs
  split at hs
  · cases hs
  rename_i hx
  have hx : s.runExit = none := by simpa using hx
  split at hs
  · obtain ⟨u, h1, h2⟩ := Res.bind_eq_next hs
    cases h2
    exact h.trans (h.event h1) (h.settle u)
  split at hs
  · cases hs
    exact h.trans (h.sprite s) (h.settle _)
  split at hs
  · have hb := h.boundary s
    unfold stepBoundary at hs
    split at hs
    · cases hs
    split at hs <;> rename_i c hc <;> rw [hc] at hb
    · cases hs
      exact h.trans hb (h.exit { s with cpu := c } _ hx)
    · cases hs
      exact h.trans (h.trans hb (h.idle { s with cpu := c } hx)) (h.settle _)
    · exact h.trans hb (h.runSeq (interruptSeqOf_keeps _) hs)
    · obtain ⟨u, h1, h2⟩ := Res.bind_eq_next hs
      refine h.trans (h.trans hb (h.fetch h1)) ?_
      unfold afterFetch at h2
      split at h2
      · cases h2
        exact h.refl _
      split at h2
      · split at h2
        · exact h.exec h2
        · cases h2
          exact h.refl _
      · cases h2
        exact h.refl _
  · unfold stepResume at hs
    split at hs
    · exact h.exec hs
    · exact h.runSeq (interruptSeqOf_keeps _) hs

end Sys2Proof.Machine
end

