-- ==== Sys2Proof/Laws/Devices.lean ====
section
/-! SUPPORT. What the devices' operations leave alone (`DeviceFrame`), and what one bus cycle is
(`oneCycle_inv`). -/

namespace Sys2Proof.Machine

/-- `t` is `s` but for what a device's operation may change: the device registers, the CPU's run state, and
outputs that are added. -/
def DeviceFrame (s t : State) : Prop :=
  ∃ vs ss, t = { s with
    cpu := { s.cpu with mode := t.cpu.mode }
    queue := t.queue, timers := t.timers, audio := t.audio, display := t.display, irqLatch := t.irqLatch
    serial := t.serial, ioDir := t.ioDir, ioDat := t.ioDat, atten := t.atten, mpan := t.mpan
    mstereo := t.mstereo, green := t.green, bluered := t.bluered
    video := s.video ++ vs, serialOut := s.serialOut ++ ss }

/-- A change of the device registers alone is within the frame. -/
theorem DeviceFrame.of_eq {s t : State} (h : t = { s with
    cpu := { s.cpu with mode := t.cpu.mode }
    queue := t.queue, timers := t.timers, audio := t.audio, display := t.display, irqLatch := t.irqLatch
    serial := t.serial, ioDir := t.ioDir, ioDat := t.ioDat, atten := t.atten, mpan := t.mpan
    mstereo := t.mstereo, green := t.green, bluered := t.bluered }) : DeviceFrame s t :=
  ⟨[], [], by rw [List.append_nil, List.append_nil]; exact h⟩

theorem DeviceFrame.refl (s : State) : DeviceFrame s s := .of_eq rfl

theorem DeviceFrame.trans {s t u : State} (h : DeviceFrame s t) (h' : DeviceFrame t u) : DeviceFrame s u := by
  obtain ⟨v, x, h⟩ := h
  obtain ⟨w, y, h'⟩ := h'
  refine ⟨v ++ w, x ++ y, ?_⟩
  rw [h', h]
  simp only [List.append_assoc]

/-! ### Display -/

theorem emitUpTo_frame (k : Nat) (s : State) : DeviceFrame s (emitUpTo k s) := by
  unfold emitUpTo
  split
  · exact ⟨[_], [], by rw [List.append_nil]; rfl⟩
  · exact .refl s

theorem sink_frame (c : VideoCall) (s : State) : DeviceFrame s (s.sink c) :=
  ⟨[c], [], by rw [List.append_nil]; rfl⟩

theorem vblank_frame (s : State) : DeviceFrame s (vblank s) :=
  ((emitUpTo_frame _ s).trans (.of_eq rfl)).trans ((sink_frame _ _).trans (.of_eq rfl))

theorem hblank_frame (t : Tick) (s : State) : DeviceFrame s (hblank t s).1 := by
  have h : DeviceFrame s (hblankStart t s) :=
    ((emitUpTo_frame _ s).trans (.of_eq rfl)).trans ((sink_frame _ _).trans (.of_eq rfl))
  unfold hblank
  simp only
  split <;> exact h.trans (.of_eq rfl)

theorem updatePalette_frame (t : Tick) (reg : Nat) (v : Byte) (s : State) : DeviceFrame s (updatePalette t reg v s) :=
  (emitUpTo_frame _ s).trans (sink_frame _ _)

/-! ### Timers -/

theorem fireMark_frame (n : Fin 12) (s : State) : DeviceFrame s (fireMark n s) := by
  unfold fireMark
  simp only
  split <;> exact .of_eq rfl

theorem fireOwn_frame (n : Fin 12) (t : Tick) (s : State) : DeviceFrame s (fireOwn n t s).1 := by
  unfold fireOwn
  split
  · exact hblank_frame t s
  · exact vblank_frame s
  all_goals exact .of_eq rfl

theorem fire_frame (fuel : Nat) (firing : List (Fin 12)) (n : Fin 12) (t : Tick) (s : State) :
    DeviceFrame s (fire fuel firing n t s).1 := by
  induction fuel generalizing firing n s with
  | zero => exact .refl s
  | succ fuel ih =>
    have h := (fireMark_frame n s).trans (fireOwn_frame n t (fireMark n s))
    unfold fire
    simp only
    refine h.trans (DeviceFrame.trans ?_ (.of_eq rfl))
    split
    · exact .refl _
    · split
      · split
        · exact ih ..
        · exact .of_eq rfl
      · exact .refl _

theorem fireAction_frame (n : Fin 12) (t : Tick) (s : State) : DeviceFrame s (fireAction n t s).1 := by
  unfold fireAction
  split
  · exact .refl s
  · exact fire_frame ..

theorem setControlB_frame (n : Fin 12) (t : Tick) (v : Byte) (s : State) :
    DeviceFrame s (setControlB n t v s).1 := by
  unfold setControlB
  simp only
  split <;> exact .of_eq rfl

/-! ### The registers -/

theorem applySerialIrq_frame (s : State) : DeviceFrame s (applySerialIrq s) := by
  unfold applySerialIrq
  split
  · exact .of_eq rfl
  · exact .refl s

/-- A register write changes no more than the devices. -/
theorem chipWrite_frame (t : Tick) (a : Addr) (v : Byte) (s : State) : DeviceFrame s (chipWrite t a v s).1 := by
  unfold chipWrite
  split
  case h_4 | h_12 => exact DeviceFrame.trans (.of_eq rfl) (setControlB_frame ..)
  case h_16 | h_20 => exact DeviceFrame.trans (.of_eq rfl) (applySerialIrq_frame _)
  case h_21 => exact ⟨[], [v], by rw [List.append_nil]; rfl⟩
  case h_26 | h_27 => exact DeviceFrame.trans (.of_eq rfl) (updatePalette_frame ..)
  all_goals exact .of_eq rfl

theorem chipReadEffect_frame (a : Addr) (s : State) : DeviceFrame s (chipReadEffect a s) := by
  unfold chipReadEffect
  split <;> exact .of_eq rfl

/-! ### A bus access, and a bus cycle -/

/-- `t` is `s` but for what an access may change: RAM, MAPCTL, the sprite device, the request of a break, and what
a device's operation may change. -/
def AccessFrame (s t : State) : Prop :=
  ∃ r : State, DeviceFrame r t ∧ r = { s with
    ram := r.ram, mapctl := r.mapctl, suzy := r.suzy
    cpu := { s.cpu with brk := { s.cpu.brk with fromTrap := r.cpu.brk.fromTrap } } }

theorem access_frame (req : BusReq) (s : State) : AccessFrame s (access req s).2.1 := by
  cases req with
  | write a v =>
    simp only [access]
    generalize applyTraps .write s.now a s.traps v = r
    cases hr : route s.mapctl (BusReq.write a v).addr
    case chip => exact ⟨s.trapBreak r.2, chipWrite_frame .., rfl⟩
    case rom =>
      refine ⟨_, .refl _, ?_⟩
      simp only [busWrite]
      split <;> rfl
    all_goals exact ⟨_, .refl _, rfl⟩
  | fetchOpcode a | fetchOperand a | read a | discard a =>
    simp only [access]
    generalize applyTraps _ s.now _ s.traps _ = r
    refine ⟨s.trapBreak r.2, ?_, rfl⟩
    unfold busReadEffect
    split
    · unfold chipReadEffect
      split <;> exact .of_eq rfl
    · exact .refl _

/-- The queue before the events of an access are pushed is the queue it found: no access takes an event out. -/
theorem resolve_eq (req : BusReq) (s : State) :
    resolve req s = ((access req s).1, (Yield.commit (access req s).2).recordAccess req (access req s).1
      (completion (route s.mapctl req.addr) req.kind req.addr s.prevBus s.now)) := rfl

/-- The state with the request of a sequence outstanding. -/
def State.asking (q : Seq) (s : State) : State :=
  { s with cpu := { s.cpu with pendingReq := some (q s.params s.cpu).req } }

/-- What one bus cycle is: no request was outstanding. At a refused register it leaves the request outstanding and ends
the run; else the state after the access has the CPU that the sequence's answer gives. -/
theorem oneCycle_inv {q : Seq} {s t : State} (h : oneCycle q s = .next t) :
    s.cpu.pendingReq = none ∧
      if refusedAccess s.mapctl (q s.params s.cpu).req.addr then t = (s.asking q).refuse (q s.params s.cpu).req.addr
      else ∃ u v c, resolve (q s.params s.cpu).req (s.asking q) = (v, u) ∧
        c = { u.cpu with pendingReq := none } ∧
        t = State.settle { u with cpu := { (q u.params c).done v c with pendingReq := none } } := by
  unfold oneCycle at h
  obtain ⟨⟨req, c⟩, h1, h2⟩ := Res.bind_eq_next h
  unfold Cpu.advance at h1
  split at h1
  · cases h1
  · rename_i hn
    cases h1
    refine ⟨hn, ?_⟩
    dsimp only at h2
    split at h2
    · rename_i hr
      cases h2
      exact (if_pos hr).mpr rfl
    · rename_i hr
      obtain ⟨d, h5, h6⟩ := Res.bind_eq_next h2
      refine (if_neg hr).mpr ?_
      unfold Cpu.respond at h5
      split at h5
      · cases h5
      · cases h5
        cases h6
        exact ⟨_, _, _, rfl, rfl, rfl⟩

end Sys2Proof.Machine
end

