-- ==== Sys2Proof/Laws/PerInstr.lean ====
section
/-! SUPPORT. One lemma per instruction: the decoder gives back the instruction whose opcode the encoder
writes, on every machine that has it. -/

namespace Sys2Proof.Laws.RoundTrip

/-- The opcode of a well-formed instruction decodes to it (30_encoding R180 to R183). -/
def Statement (i : Instr) : Prop :=
  ∀ p : Params, i.wellFormed p = true → decodeOpcode p (opcodeOf i) = i

/-- Decoding and presence depend on two parameters only. -/
theorem of_switches {i : Instr}
    (h : ∀ r w : Bool,
      i.wellFormed { Params.default with rockwellBitops := r, wdcWaiStp := w } = true →
        decodeOpcode { Params.default with rockwellBitops := r, wdcWaiStp := w } (opcodeOf i) = i) :
    Statement i := by
  intro p hw
  refine h p.rockwellBitops p.wdcWaiStp ?_
  have he : i.present p =
      i.present { Params.default with rockwellBitops := p.rockwellBitops, wdcWaiStp := p.wdcWaiStp } := by
    cases i <;> rfl
  simp only [Instr.wellFormed, ← he]
  exact hw

/-- What is left to show of an instruction, for the four settings of the two parameters. -/
abbrev Switched (i : Instr) : Prop :=
  ∀ r w : Bool, i.wellFormed { Params.default with rockwellBitops := r, wdcWaiStp := w } = true →
    decodeOpcode { Params.default with rockwellBitops := r, wdcWaiStp := w } (opcodeOf i) = i

/-- The addressing modes. -/
def modes : List Mode :=
  [.imm, .acc, .zp, .zpX, .zpY, .abs, .absX, .absY, .indX, .indY, .ind, .absInd, .absIndX]

/-- The instructions with a mode. -/
def moded : List (Mode → Instr) :=
  [.lda, .ldx, .ldy, .sta, .stx, .sty, .stz, .adc, .sbc, .and, .ora, .eor, .cmp, .cpx, .cpy, .bit,
    .asl, .lsr, .rol, .ror, .inc, .dec, .tsb, .trb, .jmp]

/-- The instructions without a field. -/
def fixed : List Instr :=
  [.tax, .tay, .txa, .tya, .tsx, .txs, .inx, .iny, .dex, .dey, .rmb0, .rmb1, .rmb2, .rmb3, .rmb4,
    .rmb5, .rmb6, .rmb7, .smb0, .smb1, .smb2, .smb3, .smb4, .smb5, .smb6, .smb7, .bpl, .bmi, .bvc,
    .bvs, .bcc, .bcs, .bne, .beq, .bra, .bbr0, .bbr1, .bbr2, .bbr3, .bbr4, .bbr5, .bbr6, .bbr7,
    .bbs0, .bbs1, .bbs2, .bbs3, .bbs4, .bbs5, .bbs6, .bbs7, .jsr, .rts, .rti, .brk, .pha, .php, .phx,
    .phy, .pla, .plp, .plx, .ply, .clc, .sec, .cli, .sei, .cld, .sed, .clv, .nop, .nopZp, .nop5C,
    .wai, .stp]

theorem moded_switched : ∀ k : Fin 25, ∀ m ∈ modes, Switched (moded.get k m) := by decide +kernel

theorem fixed_switched : ∀ k : Fin 75, Switched (fixed.get k) := by decide +kernel

theorem of_moded (k : Fin 25) (m : Mode) : Statement (moded.get k m) :=
  of_switches (moded_switched k m (by cases m <;> decide))

theorem of_fixed (k : Fin 75) : Statement (fixed.get k) := of_switches (fixed_switched k)

theorem lda (m : Mode) : Statement (.lda m) := of_moded 0 m
theorem ldx (m : Mode) : Statement (.ldx m) := of_moded 1 m
theorem ldy (m : Mode) : Statement (.ldy m) := of_moded 2 m
theorem sta (m : Mode) : Statement (.sta m) := of_moded 3 m
theorem stx (m : Mode) : Statement (.stx m) := of_moded 4 m
theorem sty (m : Mode) : Statement (.sty m) := of_moded 5 m
theorem stz (m : Mode) : Statement (.stz m) := of_moded 6 m
theorem tax : Statement .tax := of_fixed 0
theorem tay : Statement .tay := of_fixed 1
theorem txa : Statement .txa := of_fixed 2
theorem tya : Statement .tya := of_fixed 3
theorem tsx : Statement .tsx := of_fixed 4
theorem txs : Statement .txs := of_fixed 5
theorem adc (m : Mode) : Statement (.adc m) := of_moded 7 m
theorem sbc (m : Mode) : Statement (.sbc m) := of_moded 8 m
theorem and (m : Mode) : Statement (.and m) := of_moded 9 m
theorem ora (m : Mode) : Statement (.ora m) := of_moded 10 m
theorem eor (m : Mode) : Statement (.eor m) := of_moded 11 m
theorem cmp (m : Mode) : Statement (.cmp m) := of_moded 12 m
theorem cpx (m : Mode) : Statement (.cpx m) := of_moded 13 m
theorem cpy (m : Mode) : Statement (.cpy m) := of_moded 14 m
theorem bit (m : Mode) : Statement (.bit m) := of_moded 15 m
theorem asl (m : Mode) : Statement (.asl m) := of_moded 16 m
theorem lsr (m : Mode) : Statement (.lsr m) := of_moded 17 m
theorem rol (m : Mode) : Statement (.rol m) := of_moded 18 m
theorem ror (m : Mode) : Statement (.ror m) := of_moded 19 m
theorem inc (m : Mode) : Statement (.inc m) := of_moded 20 m
theorem dec (m : Mode) : Statement (.dec m) := of_moded 21 m
theorem inx : Statement .inx := of_fixed 6
theorem iny : Statement .iny := of_fixed 7
theorem dex : Statement .dex := of_fixed 8
theorem dey : Statement .dey := of_fixed 9
theorem tsb (m : Mode) : Statement (.tsb m) := of_moded 22 m
theorem trb (m : Mode) : Statement (.trb m) := of_moded 23 m
theorem rmb0 : Statement .rmb0 := of_fixed 10
theorem rmb1 : Statement .rmb1 := of_fixed 11
theorem rmb2 : Statement .rmb2 := of_fixed 12
theorem rmb3 : Statement .rmb3 := of_fixed 13
theorem rmb4 : Statement .rmb4 := of_fixed 14
theorem rmb5 : Statement .rmb5 := of_fixed 15
theorem rmb6 : Statement .rmb6 := of_fixed 16
theorem rmb7 : Statement .rmb7 := of_fixed 17
theorem smb0 : Statement .smb0 := of_fixed 18
theorem smb1 : Statement .smb1 := of_fixed 19
theorem smb2 : Statement .smb2 := of_fixed 20
theorem smb3 : Statement .smb3 := of_fixed 21
theorem smb4 : Statement .smb4 := of_fixed 22
theorem smb5 : Statement .smb5 := of_fixed 23
theorem smb6 : Statement .smb6 := of_fixed 24
theorem smb7 : Statement .smb7 := of_fixed 25
theorem bpl : Statement .bpl := of_fixed 26
theorem bmi : Statement .bmi := of_fixed 27
theorem bvc : Statement .bvc := of_fixed 28
theorem bvs : Statement .bvs := of_fixed 29
theorem bcc : Statement .bcc := of_fixed 30
theorem bcs : Statement .bcs := of_fixed 31
theorem bne : Statement .bne := of_fixed 32
theorem beq : Statement .beq := of_fixed 33
theorem bra : Statement .bra := of_fixed 34
theorem bbr0 : Statement .bbr0 := of_fixed 35
theorem bbr1 : Statement .bbr1 := of_fixed 36
theorem bbr2 : Statement .bbr2 := of_fixed 37
theorem bbr3 : Statement .bbr3 := of_fixed 38
theorem bbr4 : Statement .bbr4 := of_fixed 39
theorem bbr5 : Statement .bbr5 := of_fixed 40
theorem bbr6 : Statement .bbr6 := of_fixed 41
theorem bbr7 : Statement .bbr7 := of_fixed 42
theorem bbs0 : Statement .bbs0 := of_fixed 43
theorem bbs1 : Statement .bbs1 := of_fixed 44
theorem bbs2 : Statement .bbs2 := of_fixed 45
theorem bbs3 : Statement .bbs3 := of_fixed 46
theorem bbs4 : Statement .bbs4 := of_fixed 47
theorem bbs5 : Statement .bbs5 := of_fixed 48
theorem bbs6 : Statement .bbs6 := of_fixed 49
theorem bbs7 : Statement .bbs7 := of_fixed 50
theorem jmp (m : Mode) : Statement (.jmp m) := of_moded 24 m
theorem jsr : Statement .jsr := of_fixed 51
theorem rts : Statement .rts := of_fixed 52
theorem rti : Statement .rti := of_fixed 53
theorem brk : Statement .brk := of_fixed 54
theorem pha : Statement .pha := of_fixed 55
theorem php : Statement .php := of_fixed 56
theorem phx : Statement .phx := of_fixed 57
theorem phy : Statement .phy := of_fixed 58
theorem pla : Statement .pla := of_fixed 59
theorem plp : Statement .plp := of_fixed 60
theorem plx : Statement .plx := of_fixed 61
theorem ply : Statement .ply := of_fixed 62
theorem clc : Statement .clc := of_fixed 63
theorem sec : Statement .sec := of_fixed 64
theorem cli : Statement .cli := of_fixed 65
theorem sei : Statement .sei := of_fixed 66
theorem cld : Statement .cld := of_fixed 67
theorem sed : Statement .sed := of_fixed 68
theorem clv : Statement .clv := of_fixed 69
theorem nop : Statement .nop := of_fixed 70
theorem nopOne (op : Byte) : Statement (.nopOne op) := of_switches (by revert op; decide +kernel)
theorem nopImm (op : Byte) : Statement (.nopImm op) := of_switches (by revert op; decide +kernel)
theorem nopZp : Statement .nopZp := of_fixed 71
theorem nopZpX (op : Byte) : Statement (.nopZpX op) := of_switches (by revert op; decide +kernel)
theorem nopAbs (op : Byte) : Statement (.nopAbs op) := of_switches (by revert op; decide +kernel)
theorem nop5C : Statement .nop5C := of_fixed 72
theorem wai : Statement .wai := of_fixed 73
theorem stp : Statement .stp := of_fixed 74

end Sys2Proof.Laws.RoundTrip
end

