-- ==== Sys2Proof/Laws/Queue.lean ====
section
/-! SUPPORT. The event queue: what a push, a pop and a cancel do to the events it holds and to its order. -/

namespace Sys2Proof.Machine

/-! ### Membership -/

theorem mem_push {e f : Event} {q : List Event} : f ∈ push e q ↔ f = e ∨ f ∈ q := by
  induction q with
  | nil => simp [push]
  | cons g q ih =>
    unfold push
    split
    · simp
    · simp only [List.mem_cons, ih]
      tauto

theorem mem_pushAll {es q : List Event} {f : Event} : f ∈ pushAll es q ↔ f ∈ es ∨ f ∈ q := by
  unfold pushAll
  induction es generalizing q with
  | nil => simp
  | cons e es ih =>
    rw [List.foldl_cons, ih, mem_push, List.mem_cons]
    tauto

theorem mem_cancel {k : EventKind} {q : List Event} {f : Event} : f ∈ cancel k q ↔ f ∈ q ∧ f.kind ≠ k := by
  simp [cancel]

/-- There is no earliest tick when every entry is the sentinel. -/
theorem peek_none (q : List Event) : peekEarliestTick q = none ↔ ∀ e ∈ q, e.kind = .none := by
  induction q with
  | nil => simp [peekEarliestTick]
  | cons e q ih =>
    unfold peekEarliestTick
    split
    · rename_i h
      simp [ih, h]
    · rename_i h
      split <;> simp [h]

/-- The earliest tick is the tick of an event, and no event's tick is less. -/
theorem peek_some {q : List Event} {t : Tick} (h : peekEarliestTick q = some t) :
    (∃ e ∈ q, e.kind ≠ .none ∧ e.tick = t) ∧ ∀ e ∈ q, e.kind ≠ .none → t ≤ e.tick := by
  induction q generalizing t with
  | nil => simp [peekEarliestTick] at h
  | cons e q ih =>
    unfold peekEarliestTick at h
    split at h
    · rename_i hk
      obtain ⟨⟨f, h1, h2⟩, h3⟩ := ih h
      refine ⟨⟨f, List.mem_cons_of_mem _ h1, h2⟩, fun g hg hgk => ?_⟩
      rcases List.mem_cons.1 hg with rfl | hg
      · exact absurd hk hgk
      · exact h3 g hg hgk
    · rename_i hk
      split at h
      · rename_i hn
        have hn' := (peek_none q).1 hn
        cases h
        refine ⟨⟨e, List.mem_cons_self .., hk, rfl⟩, fun g hg hgk => ?_⟩
        rcases List.mem_cons.1 hg with rfl | hg
        · exact BitVec.le_refl _
        · exact absurd (hn' g hg) hgk
      · rename_i u hu
        obtain ⟨⟨f, h1, h2, h4⟩, h3⟩ := ih hu
        cases h
        refine ⟨?_, fun g hg hgk => ?_⟩
        · by_cases hle : e.tick ≤ u
          · exact ⟨e, List.mem_cons_self .., hk, by rw [if_pos hle]⟩
          · exact ⟨f, List.mem_cons_of_mem _ h1, h2, by rw [if_neg hle, h4]⟩
        · rcases List.mem_cons.1 hg with rfl | hg
          · split <;> bv_omega
          · have := h3 g hg hgk
            split <;> bv_omega

theorem mem_earliestEvents {q : List Event} {e : Event} :
    e ∈ earliestEvents q ↔ e ∈ q ∧ e.kind ≠ .none ∧ peekEarliestTick q = some e.tick := by
  unfold earliestEvents
  split
  · rename_i h
    simp [h]
  · rename_i t h
    simp only [List.mem_filter, Bool.and_eq_true, decide_eq_true_eq, h, Option.some.injEq]
    rw [eq_comm (a := t)]

/-- A pop answers the sentinel and takes out nothing, or takes out an event of the least tick. -/
theorem popEarliest_cases (ties : Nat) (q : List Event) :
    (earliestEvents q = [] ∧ popEarliest ties q = (Event.sentinel, q, ties)) ∨
      ∃ x ties', x ∈ earliestEvents q ∧ popEarliest ties q = (x, q.erase x, ties') := by
  unfold popEarliest
  split
  · rename_i h
    exact .inl ⟨h, rfl⟩
  · rename_i e h
    exact .inr ⟨e, ties, by simp [h], rfl⟩
  · rename_i e f es h
    refine .inr ⟨_, _, ?_, rfl⟩
    rw [h]
    have hlt : Config.tieOrder ties % (e :: f :: es).length < (e :: f :: es).length := Nat.mod_lt _ (by simp)
    rw [List.getD_eq_getElem _ _ hlt]
    exact List.getElem_mem ..

/-! ### The order -/

theorem Event.before_trans {e f g : Event} (h : e.before f = true) (h' : f.before g = true) :
    e.before g = true := by
  simp only [Event.before, Bool.or_eq_true, Bool.and_eq_true, decide_eq_true_eq] at *
  bv_omega

theorem Event.before_total {e f : Event} (h : e.before f = false) : f.before e = true := by
  rw [Bool.eq_false_iff] at h
  simp only [Event.before, Bool.or_eq_true, Bool.and_eq_true, decide_eq_true_eq, ne_eq, not_or, not_and] at *
  bv_omega

/-- An event the queue may hold. -/
def Event.proper (e : Event) : Bool :=
  decide (e.kind ≠ .none) && (match e.kind with | .timer n => decide (n < 12) | _ => true)

/-- The queue's form: every event proper, and the list in order. -/
theorem queueWf_iff {q : List Event} :
    queueWf q = true ↔ (∀ e ∈ q, e.proper = true) ∧ q.Pairwise fun e f => e.before f = true := by
  induction q with
  | nil => simp [queueWf]
  | cons e q ih =>
    simp only [queueWf, Bool.and_eq_true, ih, List.forall_mem_cons, List.pairwise_cons]
    have hp : e.proper = true ↔
        decide (e.kind ≠ .none) = true ∧
          (match e.kind with | .timer n => decide (n < 12) | _ => true) = true := by
      simp only [Event.proper, Bool.and_eq_true]
    constructor
    · rintro ⟨⟨⟨h1, h2⟩, h3⟩, h4, h5⟩
      refine ⟨⟨hp.2 ⟨h1, h2⟩, h4⟩, ?_, h5⟩
      cases q with
      | nil => simp
      | cons f q =>
        intro g hg
        rcases List.mem_cons.1 hg with rfl | hg
        · exact h3
        · exact Event.before_trans h3 ((List.pairwise_cons.1 h5).1 g hg)
    · rintro ⟨⟨h1, h4⟩, h3, h5⟩
      refine ⟨⟨hp.1 h1, ?_⟩, h4, h5⟩
      cases q with
      | nil => rfl
      | cons f q => exact h3 f (List.mem_cons_self ..)

theorem queueWf_push {e : Event} {q : List Event} (he : e.proper = true) (h : queueWf q = true) :
    queueWf (push e q) = true := by
  rw [queueWf_iff] at *
  obtain ⟨h1, h2⟩ := h
  refine ⟨fun f hf => ?_, ?_⟩
  · rcases mem_push.1 hf with rfl | hf
    · exact he
    · exact h1 f hf
  · clear h1
    induction q with
    | nil => simp [push]
    | cons g q ih =>
      obtain ⟨h3, h4⟩ := List.pairwise_cons.1 h2
      unfold push
      split
      · rename_i hb
        refine List.pairwise_cons.2 ⟨fun f hf => ?_, h2⟩
        rcases List.mem_cons.1 hf with rfl | hf
        · exact hb
        · exact Event.before_trans hb (h3 f hf)
      · rename_i hb
        refine List.pairwise_cons.2 ⟨fun f hf => ?_, ih h4⟩
        rcases mem_push.1 hf with rfl | hf
        · exact Event.before_total (Bool.eq_false_iff.2 hb)
        · exact h3 f hf

theorem queueWf_pushAll {es q : List Event} (he : ∀ e ∈ es, e.proper = true) (h : queueWf q = true) :
    queueWf (pushAll es q) = true := by
  unfold pushAll
  induction es generalizing q with
  | nil => exact h
  | cons e es ih =>
    exact ih (fun f hf => he f (List.mem_cons_of_mem _ hf)) (queueWf_push (he e (List.mem_cons_self ..)) h)

theorem queueWf_of_sublist {q r : List Event} (hs : r.Sublist q) (h : queueWf q = true) : queueWf r = true := by
  rw [queueWf_iff] at *
  exact ⟨fun e he => h.1 e (hs.subset he), h.2.sublist hs⟩

theorem queueWf_cancel {k : EventKind} {q : List Event} (h : queueWf q = true) : queueWf (cancel k q) = true :=
  queueWf_of_sublist List.filter_sublist h

theorem queueWf_erase {e : Event} {q : List Event} (h : queueWf q = true) : queueWf (q.erase e) = true :=
  queueWf_of_sublist List.erase_sublist h

end Sys2Proof.Machine
end

