-- ==== Sys2Proof/Laws/Sequences.lean ====
section
/-! SUPPORT. What each shared bus sequence does when it runs undisturbed at plain addresses: one lemma
`<sequence>_completes` for each, which says the next state, its bus cycles and its frame. -/

set_option linter.unusedSimpArgs false

namespace Sys2Proof.Machine

/-! ### Runs of cycles over the CPU and RAM alone -/

/-- The state with other RAM. -/
def State.withRam (s : State) (m : List Host.Cell) : State := { s with ram := m }

/-- `q` takes the CPU from `c` to `d` and RAM from `m` to `n` by the bus cycles `tr`, the rest of the
machine being that of `s`. -/
def Cycles (q : Seq) (s : State) :
    Cpu → List Host.Cell → List BusRecord → Cpu → List Host.Cell → Prop
  | c, m, [], d, n => d = c ∧ n = m
  | c, m, r :: tr, d, n =>
    (s.withRam m).recordOf (q s.params c).req = r ∧ ((q s.params c).done r.value c).pendingReq = none ∧
      (tr = [] ∨ ((q s.params c).done r.value c).cycle ≠ 0) ∧
      Cycles q s ((q s.params c).done r.value c) ((s.withRam m).ramAfter (q s.params c).req) tr d n

@[simp] theorem State.withRam_self (s : State) : s.withRam s.ram = s := rfl
@[simp] theorem State.withRam_withRam (s : State) (m n : List Host.Cell) :
    (s.withRam m).withRam n = s.withRam n := rfl
@[simp] theorem State.withRam_ram (s : State) (m : List Host.Cell) : (s.withRam m).ram = m := rfl
@[simp] theorem State.withRam_params (s : State) (m : List Host.Cell) : (s.withRam m).params = s.params := rfl
@[simp] theorem State.withRam_storedRam (s : State) (a : Addr) (v : Byte) :
    s.withRam (s.storedRam a v) = s.stored a v := rfl
@[simp] theorem State.withRam_storedRam₂ (s : State) (a b : Addr) (v w : Byte) :
    s.withRam ((s.stored a v).storedRam b w) = (s.stored a v).stored b w := rfl
@[simp] theorem State.withRam_storedRam₃ (s : State) (a b c : Addr) (v w x : Byte) :
    s.withRam (((s.stored a v).stored b w).storedRam c x) = ((s.stored a v).stored b w).stored c x := rfl
@[simp] theorem State.recordOf_opnd (s : State) (a : Addr) : s.recordOf (.fetchOperand a) = s.opnd a := rfl
@[simp] theorem State.recordOf_read (s : State) (a : Addr) : s.recordOf (.read a) = s.rd a := rfl
@[simp] theorem State.recordOf_discard (s : State) (a : Addr) : s.recordOf (.discard a) = s.dummy a := rfl
@[simp] theorem State.recordOf_write (s : State) (a : Addr) (v : Byte) :
    s.recordOf (.write a v) = ⟨.write, a, v⟩ := rfl
@[simp] theorem State.opnd_value (s : State) (a : Addr) : (s.opnd a).value = s.byteAt a := rfl
@[simp] theorem State.rd_value (s : State) (a : Addr) : (s.rd a).value = s.byteAt a := rfl
@[simp] theorem State.dummy_value (s : State) (a : Addr) : (s.dummy a).value = s.byteAt a := rfl
@[simp] theorem State.ramAfter_opnd (s : State) (a : Addr) : s.ramAfter (.fetchOperand a) = s.ram := rfl
@[simp] theorem State.ramAfter_read (s : State) (a : Addr) : s.ramAfter (.read a) = s.ram := rfl
@[simp] theorem State.ramAfter_discard (s : State) (a : Addr) : s.ramAfter (.discard a) = s.ram := rfl
@[simp] theorem State.ramAfter_write (s : State) (a : Addr) (v : Byte) :
    s.ramAfter (.write a v) = s.storedRam a v := rfl

theorem Cycles.append {q : Seq} {s : State} {tr tr' : List BusRecord} {c d e : Cpu}
    {m n o : List Host.Cell} (h : Cycles q s c m tr d n) (hd : tr = [] ∨ tr' = [] ∨ d.cycle ≠ 0)
    (h' : Cycles q s d n tr' e o) : Cycles q s c m (tr ++ tr') e o := by
  induction tr generalizing c m with
  | nil => obtain ⟨rfl, rfl⟩ := h; exact h'
  | cons r tr ih =>
    obtain ⟨hr, hp, hc, ht⟩ := h
    refine ⟨hr, hp, ?_, ih ht (.inr (by simpa using hd))⟩
    cases tr with
    | nil =>
      obtain ⟨rfl, -⟩ := ht
      simpa using hd
    | cons r' tr => exact .inr (by simpa using hc)

theorem Cycles.read {q : Seq} {s : State} {tr : List BusRecord} {c d : Cpu} {n : List Host.Cell} {a : Addr}
    {k : Byte → Cpu → Cpu} (hq : q s.params c = readCycle a k) (hp : (k (s.byteAt a) c).pendingReq = none)
    (hc : tr = [] ∨ (k (s.byteAt a) c).cycle ≠ 0) (h : Cycles q s (k (s.byteAt a) c) s.ram tr d n) :
    Cycles q s c s.ram (s.rd a :: tr) d n := by
  simp only [Cycles, hq, readCycle, State.withRam_self, State.recordOf_read, State.rd_value,
    State.ramAfter_read]
  exact ⟨trivial, hp, hc, h⟩

theorem Cycles.dummy {q : Seq} {s : State} {tr : List BusRecord} {c d : Cpu} {n : List Host.Cell} {a : Addr}
    {k : Cpu → Cpu} (hq : q s.params c = dummyCycle a k) (hp : (k c).pendingReq = none)
    (hc : tr = [] ∨ (k c).cycle ≠ 0) (h : Cycles q s (k c) s.ram tr d n) :
    Cycles q s c s.ram (s.dummy a :: tr) d n := by
  simp only [Cycles, hq, dummyCycle, State.withRam_self, State.recordOf_discard,
    State.ramAfter_discard]
  exact ⟨trivial, hp, hc, h⟩

theorem Cycles.write {q : Seq} {s : State} {tr : List BusRecord} {c d : Cpu} {n : List Host.Cell} {a : Addr}
    {v : Byte} {k : Cpu → Cpu} (hq : q s.params c = writeCycle a v k) (hp : (k c).pendingReq = none)
    (hc : tr = [] ∨ (k c).cycle ≠ 0) (h : Cycles q s (k c) (s.storedRam a v) tr d n) :
    Cycles q s c s.ram (⟨.write, a, v⟩ :: tr) d n := by
  simp only [Cycles, hq, writeCycle, State.withRam_self, State.recordOf_write, State.ramAfter_write]
  exact ⟨trivial, hp, hc, h⟩

theorem Cycles.nil (q : Seq) (s : State) (c : Cpu) (m : List Host.Cell) : Cycles q s c m [] c m :=
  ⟨rfl, rfl⟩

/-- A run over the CPU and RAM is a path of the whole state. -/
theorem Cycles.path {q : Seq} {s : State} {tr : List BusRecord} {c d : Cpu} {m n : List Host.Cell}
    (h : Cycles q s c m tr d n) (hd : d.cycle = 0) (s' : State) (hs : s'.params = s.params)
    (hmap : s'.mapctl = s.mapctl) (hrom : s'.rom = s.rom) (hc : s'.cpu = c) (hm : s'.ram = m) :
    ∃ t, Path q s' tr t ∧ t.cpu = d ∧ t.ram = n := by
  induction tr generalizing c m s' with
  | nil =>
    obtain ⟨rfl, rfl⟩ := h
    exact ⟨s', ⟨rfl, by rw [hc]; exact hd⟩, hc, hm⟩
  | cons r tr ih =>
    obtain ⟨hr, hp, hcy, ht⟩ := h
    subst hc
    subst hm
    have hby : ∀ a, s'.byteAt a = (s.withRam s'.ram).byteAt a := fun a => by
      simp only [State.byteAt, hmap, hrom]
      rfl
    have hrec : ∀ req, s'.recordOf req = (s.withRam s'.ram).recordOf req := fun req => by
      cases req <;> simp [State.recordOf, hby]
    have hram : ∀ req, s'.ramAfter req = (s.withRam s'.ram).ramAfter req := fun req => by
      cases req <;> simp only [State.ramAfter, State.storedRam, hmap, hs] <;> rfl
    have hcpu : cpuAfter q s' = (q s.params s'.cpu).done r.value s'.cpu := by
      simp only [cpuAfter, hs, hrec, hr]
      generalize hx : (q s.params s'.cpu).done r.value s'.cpu = x at hp ⊢
      rw [← hp]
    obtain ⟨t, h1, h2, h3⟩ := ih ht (plainNext q s') hs hmap hrom hcpu
      (by simp only [plainNext, hram, hs])
    exact ⟨t, ⟨by rw [hs, hrec, hr], by rw [hcpu]; exact hcy, h1⟩, h2, h3⟩

theorem Path.frame {q : Seq} {tr : List BusRecord} {s t : State} (h : Path q s tr t) :
    t = { s with cpu := t.cpu, ram := t.ram, now := t.now, prevBus := t.prevBus, busLog := t.busLog } ∧
      (t.now, t.prevBus) = s.afterCycles tr ∧ t.busLog = s.busLog ++ tr := by
  induction tr generalizing s with
  | nil =>
    obtain ⟨rfl, -⟩ := h
    exact ⟨rfl, rfl, by simp⟩
  | cons r tr ih =>
    obtain ⟨hr, -, hp⟩ := h
    obtain ⟨h1, h2, h3⟩ := ih hp
    refine ⟨by rw [h1]; rfl, ?_, ?_⟩
    · rw [h2, ← hr]
      simp [State.afterCycles, plainNext, tickStep, State.recordOf_kind, State.recordOf_addr]
    · rw [h3, ← hr]
      simp [plainNext]

/-- A sequence with a run of cycles to its end completes. -/
theorem runSeq_completes {q : Seq} {s : State} {tr : List BusRecord} {d : Cpu} {n : List Host.Cell}
    (h : Ready s tr) (hr : Cycles q s s.cpu s.ram tr d n) (h0 : tr ≠ []) (hn : tr.length ≤ 9)
    (he : s.cpu.EndsAs d) :
    ∃ t, runSeq q s = .next t ∧ Completed s tr t ∧ t.cpu = d ∧ t.ram = n := by
  have hd : d.cycle = 0 := by rw [he]
  obtain ⟨t, hp, rfl, rfl⟩ := hr.path hd s rfl rfl rfl rfl rfl
  obtain ⟨h1, h2, h3⟩ := hp.frame
  cases tr with
  | nil => exact absurd rfl h0
  | cons r tr => exact ⟨t, runSeq_path h hp (by simpa [Nat.lt_succ_iff] using hn), ⟨h1, h2, h3, he⟩, rfl, rfl⟩

/-! ### The address phase -/

theorem add_one_one (a : Addr) : a + 1#16 + 1#16 = a + 2#16 := by rw [BitVec.add_assoc]; rfl

theorem add_two_sub_one (a : Addr) : a + 2#16 - 1#16 = a + 1#16 := by
  rw [← add_one_one]
  simp

theorem addrPhase_eq (m : Mode) (always : Bool) (tail : Nat → Params → Cpu → Cycle) (s : State)
    (hm : m.isMem = true) (hc : s.cpu.cycle = 1) (hp : s.cpu.pendingReq = none) :
    ∃ d, Cycles (afterAddr m always tail) s s.cpu s.ram (s.addrTrace m always) d s.ram ∧
      d = { s.cpu with
        ea := s.effAddr m, cycle := addrEnd m always d, pc := s.pcAfter m
        ptr := d.ptr, data := d.data, crossed := d.crossed } := by
  cases m with
  | zp =>
    simp [Cycles, afterAddr, State.addrTrace, addrEnd, addrCycle, hc, operandCycle, Cpu.goto, hp,
      State.effAddr, State.b1, State.pcAfter, Mode.operandCount]
  | zpX =>
    simp [Cycles, afterAddr, State.addrTrace, addrEnd, addrCycle, hc, firstOperand, operandCycle,
      dummyCycle, Cpu.goto, hp, State.effAddr, State.b1, State.pcAfter, Mode.operandCount, modeIndex]
  | zpY =>
    simp [Cycles, afterAddr, State.addrTrace, addrEnd, addrCycle, hc, firstOperand, operandCycle,
      dummyCycle, Cpu.goto, hp, State.effAddr, State.b1, State.pcAfter, Mode.operandCount, modeIndex]
  | abs =>
    simp [Cycles, afterAddr, State.addrTrace, addrEnd, addrCycle, hc, firstOperand, operandCycle,
      dummyCycle, Cpu.goto, hp, State.effAddr, State.b1, State.b2, State.pcAfter, Mode.operandCount,
      add_one_one]
  | absX =>
    cases always <;> cases hb : s.crosses .absX <;> cases hcr : s.cpu.crossed <;>
      simp [State.crosses, State.indexBase, State.effAddr, State.b1, State.b2, modeIndex] at hb <;>
      simp [Cycles, afterAddr, State.addrTrace, addrEnd, addrCycle, hc, firstOperand, operandCycle,
        dummyCycle, Cpu.goto, hp, State.effAddr, State.b1, State.b2, State.pcAfter, Mode.operandCount,
        modeIndex, add_one_one, add_two_sub_one, Cpu.latchIndexed, State.crosses, State.indexBase, hb, hcr]
  | absY =>
    cases always <;> cases hb : s.crosses .absY <;> cases hcr : s.cpu.crossed <;>
      simp [State.crosses, State.indexBase, State.effAddr, State.b1, State.b2, modeIndex] at hb <;>
      simp [Cycles, afterAddr, State.addrTrace, addrEnd, addrCycle, hc, firstOperand, operandCycle,
        dummyCycle, Cpu.goto, hp, State.effAddr, State.b1, State.b2, State.pcAfter, Mode.operandCount,
        modeIndex, add_one_one, add_two_sub_one, Cpu.latchIndexed, State.crosses, State.indexBase, hb, hcr]
  | indX =>
    simp [Cycles, afterAddr, State.addrTrace, addrEnd, addrCycle, hc, firstOperand, operandCycle,
      dummyCycle, Cpu.goto, hp, State.effAddr, State.b1, State.pcAfter, Mode.operandCount, modeIndex,
      pointerLow, readCycle, State.pointer, State.pointed]
  | indY =>
    cases always <;> cases hb : s.crosses .indY <;> cases hcr : s.cpu.crossed <;>
      simp [State.crosses, State.indexBase, State.effAddr, State.b1, State.b2, State.pointer,
        State.pointed, modeIndex] at hb <;>
      simp [Cycles, afterAddr, State.addrTrace, addrEnd, addrCycle, hc, firstOperand, operandCycle,
        dummyCycle, Cpu.goto, hp, State.effAddr, State.b1, State.pcAfter, Mode.operandCount, modeIndex,
        Cpu.latchIndexed, State.crosses, State.indexBase, pointerLow, readCycle, State.pointer,
        State.pointed, hb, hcr]
  | ind =>
    simp [Cycles, afterAddr, State.addrTrace, addrEnd, addrCycle, hc, firstOperand, operandCycle,
      dummyCycle, Cpu.goto, hp, State.effAddr, State.b1, State.pcAfter, Mode.operandCount,
      pointerLow, readCycle, State.pointer, State.pointed]
  | _ => simp [Mode.isMem] at hm

theorem addrEnd_pos {m : Mode} (always : Bool) (c : Cpu) : 0 < addrEnd m always c := by
  cases m <;> simp only [addrEnd] <;> first | omega | (split <;> omega)

theorem addrTrace_length (s : State) (m : Mode) (always : Bool) : (s.addrTrace m always).length ≤ 5 := by
  cases m <;> simp [State.addrTrace] <;> split <;> simp

theorem afterAddr_tail {m : Mode} {always : Bool} {tail : Nat → Params → Cpu → Cycle} {p : Params}
    {c : Cpu} {j : Nat} (h : c.cycle = addrEnd m always c + j) :
    afterAddr m always tail p c = tail j p c := by
  have h1 : ¬c.cycle < addrEnd m always c := by omega
  have h2 : c.cycle - addrEnd m always c = j := by omega
  simp [afterAddr, h1, h2]

theorem addrEnd_next (m : Mode) (always : Bool) (c : Cpu) : addrEnd m always c.next = addrEnd m always c := by
  cases m <;> rfl

/-! ### Ends of sequences -/

/-- The CPU with other registers. -/
def Cpu.withRegs (c : Cpu) (r : Regs) : Cpu :=
  { c with a := r.a, x := r.x, y := r.y, sp := r.sp, pc := r.pc, flags := r.flags }

@[simp] theorem Cpu.withRegs_regs (c : Cpu) (r : Regs) : (c.withRegs r).regs = r := rfl
@[simp] theorem Cpu.withRegs_pendingReq (c : Cpu) (r : Regs) :
    (c.withRegs r).pendingReq = c.pendingReq := rfl
@[simp] theorem Cpu.finish_regs (c : Cpu) : c.finish.regs = c.regs := rfl

/-- `d` differs from `c` in registers, cycle and scratch at most. -/
def Cpu.Within (c d : Cpu) : Prop :=
  d = { c with
    a := d.a, x := d.x, y := d.y, sp := d.sp, pc := d.pc, flags := d.flags
    cycle := d.cycle, ea := d.ea, ptr := d.ptr, data := d.data, crossed := d.crossed }

theorem Cpu.Within.endsAs {c d : Cpu} (h : c.Within d) : c.EndsAs d.finish := by
  rw [h]
  rfl

theorem Cpu.Within.withRegs {c d : Cpu} (h : c.Within d) (r : Regs) : c.Within (d.withRegs r) := by
  rw [h]
  rfl

theorem Cpu.Within.latched {c d : Cpu} (h : c.Within d) (v : Byte) : c.Within { d with data := v }.next := by
  rw [h]
  rfl

theorem Cpu.Within.pendingReq {c d : Cpu} (h : c.Within d) : d.pendingReq = c.pendingReq := by rw [h]

/-- A sequence with a run of cycles to a finished CPU completes with its registers. -/
theorem runSeq_ends {q : Seq} {s : State} {tr : List BusRecord} {d : Cpu} {n : List Host.Cell}
    {r : Regs} (h : Ready s tr) (h0 : tr ≠ []) (hn : tr.length ≤ 9)
    (hr : Cycles q s s.cpu s.ram tr d.finish n) (hw : s.cpu.Within d) (hregs : d.regs = r) :
    ∃ t, runSeq q s = .next t ∧ Completed s tr t ∧ t.cpu.regs = r ∧ t.ram = n := by
  obtain ⟨t, h1, h2, h3, h4⟩ := runSeq_completes h hr h0 hn hw.endsAs
  exact ⟨t, h1, h2, by rw [h3]; exact hregs, h4⟩

/-- The address phase: the effective address latched, PC past the operand bytes, nothing else. -/
theorem addrPhase (m : Mode) (always : Bool) (tail : Nat → Params → Cpu → Cycle) (s : State)
    (hm : m.isMem = true) (hc : s.cpu.cycle = 1) (hp : s.cpu.pendingReq = none) :
    ∃ d, Cycles (afterAddr m always tail) s s.cpu s.ram (s.addrTrace m always) d s.ram ∧
      d.cycle = addrEnd m always d ∧ d.ea = s.effAddr m ∧ s.cpu.Within d ∧
      d.regs = { s.cpu.regs with pc := s.pcAfter m } := by
  obtain ⟨d, hd, he⟩ := addrPhase_eq m always tail s hm hc hp
  refine ⟨d, hd, ?_, ?_, ?_, ?_⟩
  · exact (congrArg Cpu.cycle he).trans rfl
  · exact (congrArg Cpu.ea he).trans rfl
  · rw [he]
    rfl
  · exact (congrArg Cpu.regs he).trans rfl

/-! ### Read-class instructions -/

/-- Reading instructions: the operation `f` on the registers, PC past the operand bytes. -/
theorem readSeq_completes {m : Mode} {r : ReadOp} {f : Byte → Regs → Regs} {s : State}
    (hf : ∀ v c, r.exec v c = c.withRegs (f v c.regs)) (hm : m = .imm ∨ m.isMem = true)
    (hc : s.cpu.cycle = 1) (h : Ready s (s.readTrace m (r.extra s.params s.cpu))) :
    ∃ t, runSeq (readSeq m r) s = .next t ∧ Completed s (s.readTrace m (r.extra s.params s.cpu)) t ∧
      t.cpu.regs = f (s.operand m) { s.cpu.regs with pc := s.pcAfter m } ∧ t.ram = s.ram := by
  have hp := h.answered
  have hx : ∀ c : Cpu, c.flags = s.cpu.flags → r.extra s.params c = r.extra s.params s.cpu :=
    fun c he => by simp [ReadOp.extra, he]
  generalize hb : r.extra s.params s.cpu = b at h hx ⊢
  rcases hm with rfl | hm
  · let d : Cpu := if b then { s.cpu with pc := s.cpu.pc + 1, data := s.operand .imm, cycle := 2 }
      else { s.cpu with pc := s.cpu.pc + 1 }
    refine runSeq_ends (d := d.withRegs (f (s.operand .imm) d.regs)) h (by simp [State.readTrace])
      (by cases b <;> simp [State.readTrace]) ?_ ?_ ?_
    · cases b <;>
        simp [Cycles, State.readTrace, readSeq, immSeq, hc, operandCycle, ReadOp.answer, hx, hf, hp,
          State.operand, State.operandAddr, Cpu.regs, Cpu.next, ReadOp.extraCycle, dummyCycle, d]
    · cases b <;> rfl
    · rw [Cpu.withRegs_regs]
      cases b <;> rfl
  · obtain ⟨d, hd, hcy, hea, hw, hrg⟩ := addrPhase m false (fun j p c =>
      match j with
      | 0 => readCycle c.ea fun v c => r.answer p v c
      | _ => r.extraCycle c.ea) s hm hc hp
    have hfl : d.flags = s.cpu.flags := by rw [show d.flags = d.regs.flags from rfl, hrg]; rfl
    have hpd : d.pendingReq = none := hw.pendingReq.trans hp
    have hq : readSeq m r = memReadSeq m r := by cases m <;> first | rfl | cases hm
    have htr : s.readTrace m b = s.addrTrace m false ++
        (s.rd (s.effAddr m) :: if b then [s.dummy (s.effAddr m)] else []) := by
      cases m <;> first | (cases hm; done) | cases b <;> simp [State.readTrace, State.operandAddr]
    have hop : s.operand m = s.byteAt (s.effAddr m) := by cases m <;> rfl
    let d' : Cpu := if b then { d with data := s.operand m }.next else d
    have hpos := addrEnd_pos (m := m) false d
    have hlen := addrTrace_length s m false
    rw [hq]
    refine runSeq_ends (d := d'.withRegs (f (s.operand m) d'.regs)) h (by rw [htr]; simp)
      (by rw [htr]; cases b <;> simp <;> omega) ?_ ?_ ?_
    · rw [htr]
      refine hd.append (.inr (.inr (by omega))) ?_
      change Cycles (memReadSeq m r) s d s.ram _ _ _
      have hq0 : memReadSeq m r s.params d = readCycle d.ea fun v c => r.answer s.params v c :=
        afterAddr_tail (j := 0) (by omega)
      rw [hop]
      cases b with
      | false =>
        have hk : r.answer s.params (s.byteAt d.ea) d = (d.withRegs (f (s.byteAt d.ea) d.regs)).finish := by
          simp [ReadOp.answer, hx d hfl, hf]
        rw [← hea]
        refine Cycles.read hq0 ?_ (.inl rfl) ?_
        · rw [hk]; exact hpd
        · rw [hk]; exact .nil ..
      | true =>
        have hk : r.answer s.params (s.byteAt d.ea) d = { d with data := s.byteAt d.ea }.next := by
          simp [ReadOp.answer, hx d hfl]
        have hq1 : memReadSeq m r s.params { d with data := s.byteAt d.ea }.next = r.extraCycle d.ea :=
          afterAddr_tail (j := 1) (by
            rw [addrEnd_next]
            have : addrEnd m false { d with data := s.byteAt d.ea } = addrEnd m false d := by
              cases m <;> rfl
            rw [this, ← hcy]
            rfl)
        rw [← hea]
        refine Cycles.read hq0 ?_ (.inr ?_) ?_
        · rw [hk]; exact hpd
        · rw [hk]; exact Nat.succ_ne_zero _
        · rw [hk]
          refine Cycles.dummy hq1 ?_ (.inl rfl) ?_
          · rw [hf]; exact hpd
          · rw [hf, show d' = { d with data := s.byteAt d.ea }.next from by simp [d', hop, hea]]
            exact .nil ..
    · cases b with
      | false => exact hw.withRegs _
      | true => exact (hw.latched _).withRegs _
    · rw [Cpu.withRegs_regs, ← hrg]
      cases b <;> rfl

/-! ### Write-class and read-modify-write instructions -/

theorem writeSeq_completes {m : Mode} {sv : Cpu → Byte} {s : State} {v : Byte}
    (hsv : ∀ d, s.cpu.Within d → d.regs = { s.cpu.regs with pc := s.pcAfter m } → sv d = v)
    (hm : m.isMem = true) (hc : s.cpu.cycle = 1) (h : Ready s (s.writeTrace m v)) :
    ∃ t, runSeq (writeSeq m sv) s = .next t ∧ Completed s (s.writeTrace m v) t ∧
      t.cpu.regs = { s.cpu.regs with pc := s.pcAfter m } ∧ StoresOnly s t (s.effAddr m) v := by
  obtain ⟨d, hd, hcy, hea, hw, hrg⟩ := addrPhase m true (fun _ _ c => writeCycle c.ea (sv c) Cpu.finish) s
    hm hc h.answered
  have hpd : d.pendingReq = none := hw.pendingReq.trans h.answered
  have hpos := addrEnd_pos (m := m) true d
  have hlen := addrTrace_length s m true
  have hq : writeSeq m sv s.params d = writeCycle d.ea (sv d) Cpu.finish :=
    afterAddr_tail (j := 0) (by omega)
  have hr : Cycles (writeSeq m sv) s s.cpu s.ram (s.writeTrace m v) d.finish (s.storedRam (s.effAddr m) v) := by
    refine hd.append (.inr (.inr (by omega))) ?_
    rw [hsv d hw hrg, hea] at hq
    exact Cycles.write hq hpd (.inl rfl) (.nil ..)
  obtain ⟨t, h1, h2, h3, h4⟩ := runSeq_ends h (by simp [State.writeTrace])
    (by simp [State.writeTrace]; omega) hr hw hrg
  exact ⟨t, h1, h2, h3, .of_storedRam h4⟩

/-- Read-modify-write of memory: `f` is applied with PC past the operand bytes. -/
theorem memRmwSeq_completes {m : Mode} {always : Bool} {f : RmwOp} {s : State} {r : Byte × Flags}
    (hf : ∀ d, s.cpu.Within d → d.regs = { s.cpu.regs with pc := s.pcAfter m } →
      f d (s.byteAt (s.effAddr m)) = r)
    (hm : m.isMem = true) (hc : s.cpu.cycle = 1) (h : Ready s (s.rmwTrace m always r.1)) :
    ∃ t, runSeq (memRmwSeq m always f) s = .next t ∧ Completed s (s.rmwTrace m always r.1) t ∧
      t.cpu.regs = { s.cpu.regs with pc := s.pcAfter m, flags := r.2 } ∧
      StoresOnly s t (s.effAddr m) r.1 := by
  obtain ⟨d, hd, hcy, hea, hw, hrg⟩ := addrPhase m always (fun j _ c =>
    match j with
    | 0 => readCycle c.ea fun v c => { c with data := (f c v).1, flags := (f c v).2 }.next
    | 1 => dummyCycle c.ea Cpu.next
    | _ => writeCycle c.ea c.data Cpu.finish) s hm hc h.answered
  have hpd : d.pendingReq = none := hw.pendingReq.trans h.answered
  have hpos := addrEnd_pos (m := m) always d
  have hlen := addrTrace_length s m always
  have hfd := hf d hw hrg
  let e : Cpu := { d with data := r.1, flags := r.2 }.next
  have hend : addrEnd m always e = addrEnd m always d := by cases m <;> rfl
  have hq0 : memRmwSeq m always f s.params d =
      readCycle d.ea fun v c => { c with data := (f c v).1, flags := (f c v).2 }.next :=
    afterAddr_tail (j := 0) (by omega)
  have hq1 : memRmwSeq m always f s.params e = dummyCycle d.ea Cpu.next :=
    afterAddr_tail (j := 1) (by rw [hend, ← hcy]; rfl)
  have hq2 : memRmwSeq m always f s.params e.next = writeCycle d.ea r.1 Cpu.finish :=
    afterAddr_tail (j := 2) (by rw [addrEnd_next, hend, ← hcy]; rfl)
  have he : s.cpu.Within e.next := by
    rw [show e = { d with data := r.1, flags := r.2 }.next from rfl, hw]
    rfl
  rw [hea] at hq0 hq1 hq2
  have hr : Cycles (memRmwSeq m always f) s s.cpu s.ram (s.rmwTrace m always r.1) e.next.finish
      (s.storedRam (s.effAddr m) r.1) := by
    refine hd.append (.inr (.inr (by omega))) ?_
    have hk : { d with
        data := (f d (s.byteAt (s.effAddr m))).1, flags := (f d (s.byteAt (s.effAddr m))).2 }.next = e := by
      rw [hfd]
    refine Cycles.read hq0 ?_ (.inr ?_) ?_
    · exact hpd
    · exact Nat.succ_ne_zero _
    · rw [hk]
      refine Cycles.dummy hq1 hpd (.inr (Nat.succ_ne_zero _)) ?_
      exact Cycles.write hq2 hpd (.inl rfl) (.nil ..)
  obtain ⟨t, h1, h2, h3, h4⟩ := runSeq_ends (r := { s.cpu.regs with pc := s.pcAfter m, flags := r.2 }) h
    (by simp [State.rmwTrace]) (by simp [State.rmwTrace]; omega) hr he (by
      have : e.next.regs = { d.regs with flags := r.2 } := rfl
      rw [this, hrg])
  exact ⟨t, h1, h2, h3, .of_storedRam h4⟩

/-! ### Sequences without an address phase -/

theorem impliedSeq_completes {op : Cpu → Cpu} {s : State} (h : Ready s [s.dummy s.cpu.pc])
    (hw : s.cpu.Within (op s.cpu)) :
    ∃ t, runSeq (impliedSeq op) s = .next t ∧ Completed s [s.dummy s.cpu.pc] t ∧
      t.cpu.regs = (op s.cpu).regs ∧ t.ram = s.ram := by
  refine runSeq_ends (d := op s.cpu) h (by simp) (by simp) ?_ hw rfl
  exact Cycles.dummy rfl (hw.pendingReq.trans h.answered) (.inl rfl) (.nil ..)

theorem branchSeq_completes {cond : Flags → Bool} {s : State} (hc : s.cpu.cycle = 1)
    (h : Ready s (s.branchTrace (cond s.cpu.flags))) :
    ∃ t, runSeq (branchSeq cond) s = .next t ∧ Completed s (s.branchTrace (cond s.cpu.flags)) t ∧
      t.cpu.regs = { s.cpu.regs with
        pc := if cond s.cpu.flags then branchTarget (s.cpu.pc + 1) s.b1 else s.cpu.pc + 1 } ∧
      t.ram = s.ram := by
  have hp := h.answered
  cases ht : cond s.cpu.flags with
  | false =>
    rw [ht] at h
    refine runSeq_ends (d := { s.cpu with pc := s.cpu.pc + 1 }) h (by simp [State.branchTrace])
      (by simp [State.branchTrace]) ?_ rfl rfl
    simp [Cycles, State.branchTrace, branchSeq, hc, operandCycle, ht, hp]
  | true =>
    rw [ht] at h
    cases hx : pageCrossed (s.cpu.pc + 1#16) (branchTarget (s.cpu.pc + 1#16) s.b1) <;>
    · refine runSeq_ends (d := { s.cpu with
          pc := branchTarget (s.cpu.pc + 1) s.b1
          ea := branchTarget (s.cpu.pc + 1) s.b1, cycle := 0
          crossed := pageCrossed (s.cpu.pc + 1) (branchTarget (s.cpu.pc + 1) s.b1) }) h
        (by simp [State.branchTrace]) (by simp [State.branchTrace]; split <;> simp) ?_ rfl rfl
      simp only [State.b1] at hx
      simp [Cycles, State.branchTrace, branchSeq, hc, operandCycle, ht, hp, Cpu.latchBranch, State.b1, hx,
        dummyCycle, Cpu.goto, Cpu.finish]

theorem bitBranchSeq_completes {n : Nat} {b : Bool} {s : State} (hc : s.cpu.cycle = 1)
    (h : Ready s (s.bitBranchTrace ((s.byteAt (zpAddr s.b1)).getLsbD n == b))) :
    ∃ t, runSeq (bitBranchSeq n b) s = .next t ∧
      Completed s (s.bitBranchTrace ((s.byteAt (zpAddr s.b1)).getLsbD n == b)) t ∧
      t.cpu.regs = { s.cpu.regs with
        pc := if (s.byteAt (zpAddr s.b1)).getLsbD n == b then branchTarget (s.cpu.pc + 2) s.b2
          else s.cpu.pc + 2 } ∧
      t.ram = s.ram := by
  have hp := h.answered
  cases ht : (s.byteAt (zpAddr s.b1)).getLsbD n == b with
  | false =>
    rw [ht] at h
    refine runSeq_ends (d := { s.cpu with
        pc := s.cpu.pc + 2, ptr := zpAddr s.b1, data := s.byteAt (zpAddr s.b1), cycle := 0 }) h
      (by simp [State.bitBranchTrace]) (by simp [State.bitBranchTrace]) ?_ rfl rfl
    simp only [State.b1, beq_eq_false_iff_ne, ne_eq] at ht
    simp [Cycles, State.bitBranchTrace, bitBranchSeq, hc, operandCycle, ht, hp, State.b1, readCycle,
      dummyCycle, Cpu.goto, Cpu.finish, add_one_one]
  | true =>
    rw [ht] at h
    cases hx : pageCrossed (s.cpu.pc + 2#16) (branchTarget (s.cpu.pc + 2#16) s.b2) <;>
    · refine runSeq_ends (d := { s.cpu with
          pc := branchTarget (s.cpu.pc + 2) s.b2
          ea := branchTarget (s.cpu.pc + 2) s.b2, cycle := 0
          ptr := zpAddr s.b1, data := s.byteAt (zpAddr s.b1)
          crossed := pageCrossed (s.cpu.pc + 2) (branchTarget (s.cpu.pc + 2) s.b2) }) h
        (by simp [State.bitBranchTrace]) (by simp [State.bitBranchTrace]; split <;> simp) ?_ rfl rfl
      simp only [State.b1, State.b2, beq_iff_eq, BitVec.ofNat_eq_ofNat] at hx ht
      simp [Cycles, State.bitBranchTrace, bitBranchSeq, hc, operandCycle, ht, hp, Cpu.latchBranch, State.b1,
        State.b2, hx, readCycle, dummyCycle, Cpu.goto, Cpu.finish, add_one_one]

theorem jmpAbsSeq_completes {s : State} (hc : s.cpu.cycle = 1)
    (h : Ready s [s.opnd s.cpu.pc, s.opnd (s.cpu.pc + 1)]) :
    ∃ t, runSeq jmpAbsSeq s = .next t ∧ Completed s [s.opnd s.cpu.pc, s.opnd (s.cpu.pc + 1)] t ∧
      t.cpu.regs = { s.cpu.regs with pc := word s.b2 s.b1 } ∧ t.ram = s.ram := by
  have hp := h.answered
  refine runSeq_ends (d := { s.cpu with pc := word s.b2 s.b1, data := s.b1, cycle := 2 }) h
    (by simp) (by simp) ?_ rfl rfl
  simp [Cycles, jmpAbsSeq, hc, firstOperand, operandCycle, hp, State.b1, State.b2, Cpu.goto, Cpu.finish]

theorem jmpIndSeq_completes {m : Mode} {s : State} (hc : s.cpu.cycle = 1)
    (h : Ready s (s.jmpIndTrace m)) :
    ∃ t, runSeq (jmpIndSeq m) s = .next t ∧ Completed s (s.jmpIndTrace m) t ∧
      t.cpu.regs = { s.cpu.regs with
        pc := word (s.byteAt (s.jmpPointer m + 1)) (s.byteAt (s.jmpPointer m)) } ∧ t.ram = s.ram := by
  have hp := h.answered
  refine runSeq_ends (d := { s.cpu with
      pc := word (s.byteAt (s.jmpPointer m + 1)) (s.byteAt (s.jmpPointer m))
      data := s.byteAt (s.jmpPointer m), ptr := s.jmpPointer m, cycle := 5 }) h
    (by simp [State.jmpIndTrace]) (by simp [State.jmpIndTrace]) ?_ rfl rfl
  have hi : ∀ (c : Cpu), c.x = s.cpu.x → c.y = s.cpu.y → modeIndex m c = modeIndex m s.cpu :=
    fun c hx hy => by cases m <;> simp [modeIndex, hx, hy]
  simp [Cycles, State.jmpIndTrace, State.jmpPointer, jmpIndSeq, hc, firstOperand, operandCycle, hp, State.b1,
    State.b2, Cpu.goto, Cpu.finish, dummyCycle, pointerLow, readCycle, hi, add_one_one, add_two_sub_one]

theorem jumpSubroutineSeq_completes {s : State} (hc : s.cpu.cycle = 1) (h : Ready s s.jsrTrace) :
    ∃ t, runSeq jumpSubroutineSeq s = .next t ∧ Completed s s.jsrTrace t ∧
      t.cpu.regs = { s.cpu.regs with
        sp := s.cpu.sp - 2, pc := word ((s.pushedPc (s.cpu.pc + 1)).byteAt (s.cpu.pc + 1)) s.b1 } ∧
      t.ram = (s.pushedPc (s.cpu.pc + 1)).ram := by
  have hp := h.answered
  have h2 : s.cpu.sp - 1#8 - 1#8 = s.cpu.sp - 2#8 := by rw [BitVec.sub_sub]; rfl
  refine runSeq_ends (d := { s.cpu with
      pc := word ((s.pushedPc (s.cpu.pc + 1)).byteAt (s.cpu.pc + 1)) s.b1
      sp := s.cpu.sp - 2, data := s.b1, cycle := 5 }) h
    (by simp [State.jsrTrace]) (by simp [State.jsrTrace, State.pushPcTrace]) ?_ rfl rfl
  simp [Cycles, State.jsrTrace, State.pushPcTrace, State.pushedPc, jumpSubroutineSeq, hc, firstOperand,
    operandCycle, hp, State.b1, Cpu.goto, Cpu.finish, dummyCycle, pushCycle, writeCycle, h2]

theorem returnSubroutineSeq_completes {s : State} (hc : s.cpu.cycle = 1) (h : Ready s s.rtsTrace) :
    ∃ t, runSeq returnSubroutineSeq s = .next t ∧ Completed s s.rtsTrace t ∧
      t.cpu.regs = { s.cpu.regs with sp := s.cpu.sp + 2, pc := s.pulledWord 1 + 1 } ∧ t.ram = s.ram := by
  have hp := h.answered
  have h2 : s.cpu.sp + 1#8 + 1#8 = s.cpu.sp + 2#8 := by rw [BitVec.add_assoc]; rfl
  refine runSeq_ends (d := { s.cpu with
      pc := s.pulledWord 1 + 1, ptr := s.pulledWord 1, sp := s.cpu.sp + 2
      data := s.pulled 1, cycle := 5 }) h
    (by simp [State.rtsTrace]) (by simp [State.rtsTrace]) ?_ rfl rfl
  simp [Cycles, State.rtsTrace, State.pulledWord, State.pulled, returnSubroutineSeq, hc, hp, Cpu.goto,
    Cpu.finish, dummyCycle, pullCycle, readCycle, h2]

theorem returnSeq_completes {s : State} (hc : s.cpu.cycle = 1) (h : Ready s s.rtiTrace) :
    ∃ t, runSeq returnSeq s = .next t ∧ Completed s s.rtiTrace t ∧
      t.cpu.regs = { s.cpu.regs with
        sp := s.cpu.sp + 3, pc := s.pulledWord 2, flags := Flags.unpack (s.pulled 1) } ∧
      t.ram = s.ram := by
  have hp := h.answered
  have h2 : s.cpu.sp + 1#8 + 1#8 = s.cpu.sp + 2#8 := by rw [BitVec.add_assoc]; rfl
  have h3 : s.cpu.sp + 2#8 + 1#8 = s.cpu.sp + 3#8 := by rw [BitVec.add_assoc]; rfl
  refine runSeq_ends (d := { s.cpu with
      pc := s.pulledWord 2, flags := Flags.unpack (s.pulled 1), sp := s.cpu.sp + 3
      data := s.pulled 2, cycle := 5 }) h
    (by simp [State.rtiTrace]) (by simp [State.rtiTrace]) ?_ rfl rfl
  simp [Cycles, State.rtiTrace, State.pulledWord, State.pulled, returnSeq, hc, hp, Cpu.goto,
    Cpu.finish, dummyCycle, pullCycle, readCycle, h2, h3]

theorem breakSeq_ignored {s : State} (hc : s.cpu.cycle = 1) (hs : s.params.brkSoftIgnoreSig = some s.b1)
    (h : Ready s [s.opnd s.cpu.pc]) :
    ∃ t, runSeq breakSeq s = .next t ∧ Completed s [s.opnd s.cpu.pc] t ∧
      t.cpu.regs = { s.cpu.regs with pc := s.cpu.pc + 1 } ∧ t.ram = s.ram := by
  have hp := h.answered
  refine runSeq_ends (d := { s.cpu with pc := s.cpu.pc + 1, data := s.b1 }) h (by simp) (by simp) ?_ rfl rfl
  simp only [State.b1] at hs
  simp [Cycles, breakSeq, hc, hp, hs, operandCycle, State.b1]

theorem loByte_word (h l : Byte) : loByte (word h l) = l := by
  refine BitVec.eq_of_getLsbD_eq fun i hi => ?_
  have h' := BitVec.getLsbD_append (x := h) (y := l) (i := i)
  simp only [loByte, word, BitVec.getLsbD_extractLsb', hi, decide_true, Bool.true_and, Nat.zero_add]
  exact h'.trans (by simp [hi])

theorem hiByte_word (h l : Byte) : hiByte (word h l) = h := by
  refine BitVec.eq_of_getLsbD_eq fun i hi => ?_
  have h' := BitVec.getLsbD_append (x := h) (y := l) (i := 8 + i)
  simp only [hiByte, word, BitVec.getLsbD_extractLsb', hi, decide_true, Bool.true_and]
  exact h'.trans (by simp)

theorem breakSeq_completes {s : State} (hc : s.cpu.cycle = 1) (hs : s.params.brkSoftIgnoreSig ≠ some s.b1)
    (h : Ready s (s.opnd s.cpu.pc :: s.entryTrace (s.cpu.pc + 1) true irqVector)) :
    ∃ t, runSeq breakSeq s = .next t ∧
      Completed s (s.opnd s.cpu.pc :: s.entryTrace (s.cpu.pc + 1) true irqVector) t ∧
      t.cpu.regs = { s.cpu.regs with
        sp := s.cpu.sp - 3, pc := s.vectorAt (s.cpu.pc + 1) true irqVector, flags := s.cpu.flags.entered } ∧
      t.ram = (s.pushedAll (s.cpu.pc + 1) true).ram ∧ t.cpu.data = s.b1 := by
  have hp := h.answered
  have s2 : s.cpu.sp - 1#8 - 1#8 = s.cpu.sp - 2#8 := by rw [BitVec.sub_sub]; rfl
  have s3 : s.cpu.sp - 2#8 - 1#8 = s.cpu.sp - 3#8 := by rw [BitVec.sub_sub]; rfl
  simp only [State.b1] at hs
  obtain ⟨t, h1, h2, h3, h4⟩ := runSeq_completes (q := breakSeq) (d := Cpu.finish { s.cpu with
      sp := s.cpu.sp - 3, pc := s.vectorAt (s.cpu.pc + 1) true irqVector, flags := s.cpu.flags.entered
      ea := word 0 ((s.pushedAll (s.cpu.pc + 1) true).byteAt irqVector), data := s.b1, cycle := 6 })
    (n := (s.pushedAll (s.cpu.pc + 1) true).ram) h (by
      simp [Cycles, State.entryTrace, State.pushPcTrace, State.pushedAll, State.pushedPc, State.vectorAt, breakSeq,
        enterHandler, hc, operandCycle, hp, hs, State.b1, Cpu.goto, Cpu.finish, pushCycle, writeCycle,
        readCycle, s2, s3, loByte_word]) (by simp) (by simp [State.entryTrace, State.pushPcTrace])
    (Cpu.Within.endsAs rfl)
  exact ⟨t, h1, h2, by rw [h3]; rfl, h4, by rw [h3]; rfl⟩

/-- IRQ and NMI, from the first of their seven cycles. -/
theorem interruptSeq_completes {s : State} {vector : Addr} (hc : s.cpu.cycle = 0)
    (h : Ready s (s.dummy s.cpu.pc :: s.dummy s.cpu.pc :: s.entryTrace s.cpu.pc false vector)) :
    ∃ t, runSeq (interruptSeq vector) s = .next t ∧
      Completed s (s.dummy s.cpu.pc :: s.dummy s.cpu.pc :: s.entryTrace s.cpu.pc false vector) t ∧
      t.cpu.regs = { s.cpu.regs with
        sp := s.cpu.sp - 3, pc := s.vectorAt s.cpu.pc false vector, flags := s.cpu.flags.entered } ∧
      t.ram = (s.pushedAll s.cpu.pc false).ram := by
  have hp := h.answered
  have s2 : s.cpu.sp - 1#8 - 1#8 = s.cpu.sp - 2#8 := by rw [BitVec.sub_sub]; rfl
  have s3 : s.cpu.sp - 2#8 - 1#8 = s.cpu.sp - 3#8 := by rw [BitVec.sub_sub]; rfl
  refine runSeq_ends (d := { s.cpu with
      sp := s.cpu.sp - 3, pc := s.vectorAt s.cpu.pc false vector, flags := s.cpu.flags.entered
      ea := word 0 ((s.pushedAll s.cpu.pc false).byteAt vector), cycle := 6 }) h
    (by simp) (by simp [State.entryTrace, State.pushPcTrace]) ?_ rfl rfl
  simp [Cycles, State.entryTrace, State.pushPcTrace, State.pushedAll, State.pushedPc, State.vectorAt, interruptSeq,
    enterHandler, hc, dummyCycle, hp, Cpu.goto, Cpu.finish, pushCycle, writeCycle,
    readCycle, s2, s3, loByte_word]

/-- RESET, from the first of its seven cycles: nothing is written. -/
theorem resetSeq_completes {s : State} (hc : s.cpu.cycle = 0) (h : Ready s s.resetTrace) :
    ∃ t, runSeq resetSeq s = .next t ∧ Completed s s.resetTrace t ∧
      t.cpu.regs = { s.cpu.regs with
        sp := s.cpu.sp - 3, pc := word (s.byteAt (resetVector + 1)) (s.byteAt resetVector)
        flags := s.cpu.flags.entered } ∧ t.ram = s.ram := by
  have hp := h.answered
  have s2 : s.cpu.sp - 1#8 - 1#8 = s.cpu.sp - 2#8 := by rw [BitVec.sub_sub]; rfl
  have s3 : s.cpu.sp - 2#8 - 1#8 = s.cpu.sp - 3#8 := by rw [BitVec.sub_sub]; rfl
  refine runSeq_ends (d := { s.cpu with
      sp := s.cpu.sp - 3, pc := word (s.byteAt (resetVector + 1)) (s.byteAt resetVector)
      flags := s.cpu.flags.entered, ea := word 0 (s.byteAt resetVector), cycle := 6 }) h
    (by simp [State.resetTrace]) (by simp [State.resetTrace]) ?_ rfl rfl
  simp [Cycles, State.resetTrace, resetSeq, hc, dummyCycle, hp, Cpu.goto, Cpu.finish, readCycle, s2, s3,
    loByte_word]

/-- WAI and STP: the run state changes at the end, nothing else. -/
theorem haltSeq_completes {m : CpuMode} {s : State} (hc : s.cpu.cycle = 1)
    (h : Ready s [s.dummy s.cpu.pc, s.dummy s.cpu.pc]) :
    ∃ t, runSeq (haltSeq m) s = .next t ∧
      Completed { s with cpu := { s.cpu with mode := m } } [s.dummy s.cpu.pc, s.dummy s.cpu.pc] t ∧
      t.cpu.regs = s.cpu.regs ∧ t.ram = s.ram := by
  have hp := h.answered
  have hr : Cycles (haltSeq m) s s.cpu s.ram [s.dummy s.cpu.pc, s.dummy s.cpu.pc]
      (Cpu.finish { s.cpu with mode := m, cycle := 2 }) s.ram := by
    simp [Cycles, haltSeq, hc, dummyCycle, hp, Cpu.goto, Cpu.finish]
  obtain ⟨t, ht, hd, hn⟩ := hr.path rfl s rfl rfl rfl rfl rfl
  obtain ⟨h1, h2, h3⟩ := ht.frame
  refine ⟨t, runSeq_path h ht (by simp), ⟨h1, h2, h3, ?_⟩, by rw [hd]; rfl, hn⟩
  rw [hd]
  exact Cpu.Within.endsAs (c := { s.cpu with mode := m }) rfl

/-- Implied operations on the accumulator. -/
theorem accSeq_completes {f : RmwOp} {s : State} (h : Ready s [s.dummy s.cpu.pc]) :
    ∃ t, runSeq (accSeq f) s = .next t ∧ Completed s [s.dummy s.cpu.pc] t ∧
      t.cpu.regs = { s.cpu.regs with a := (f s.cpu s.cpu.a).1, flags := (f s.cpu s.cpu.a).2 } ∧
      t.ram = s.ram :=
  impliedSeq_completes (op := fun c => { c with a := (f c c.a).1, flags := (f c c.a).2 }) h rfl

theorem pushSeq_completes {value : Cpu → Byte} {s : State} {v : Byte} (hc : s.cpu.cycle = 1)
    (hv : value { s.cpu with cycle := 2 } = v) (h : Ready s (s.pushTrace v)) :
    ∃ t, runSeq (pushSeq value) s = .next t ∧ Completed s (s.pushTrace v) t ∧
      t.cpu.regs = { s.cpu.regs with sp := s.cpu.sp - 1 } ∧
      StoresOnly s t (stackAddr s.cpu.sp) v := by
  have hp := h.answered
  subst hv
  obtain ⟨t, h1, h2, h3, h4⟩ := runSeq_ends (q := pushSeq value)
    (r := { s.cpu.regs with sp := s.cpu.sp - 1 })
    (d := { s.cpu with sp := s.cpu.sp - 1, cycle := 2 })
    (n := s.storedRam (stackAddr s.cpu.sp) (value { s.cpu with cycle := 2 })) h (by simp [State.pushTrace])
    (by simp [State.pushTrace]) (by
      simp [Cycles, State.pushTrace, pushSeq, hc, hp, Cpu.goto, dummyCycle, pushCycle, writeCycle]) rfl rfl
  exact ⟨t, h1, h2, h3, .of_storedRam h4⟩

theorem pullSeq_completes {op : Byte → Cpu → Cpu} {f : Byte → Regs → Regs} {s : State}
    (hf : ∀ v c, op v c = c.withRegs (f v c.regs)) (hc : s.cpu.cycle = 1) (h : Ready s s.pullTrace) :
    ∃ t, runSeq (pullSeq op) s = .next t ∧ Completed s s.pullTrace t ∧
      t.cpu.regs = f (s.pulled 1) { s.cpu.regs with sp := s.cpu.sp + 1 } ∧ t.ram = s.ram := by
  have hp := h.answered
  refine runSeq_ends (d := Cpu.withRegs { s.cpu with sp := s.cpu.sp + 1, cycle := 3 }
      (f (s.pulled 1) { s.cpu.regs with sp := s.cpu.sp + 1 })) h (by simp [State.pullTrace])
    (by simp [State.pullTrace]) ?_ rfl rfl
  simp [Cycles, State.pullTrace, pullSeq, hc, hp, Cpu.goto, dummyCycle, pullCycle, readCycle, hf, State.pulled,
    Cpu.regs]

theorem nop5CSeq_completes {s : State} (hc : s.cpu.cycle = 1) (h : Ready s s.nop5CTrace) :
    ∃ t, runSeq nop5CSeq s = .next t ∧ Completed s s.nop5CTrace t ∧
      t.cpu.regs = { s.cpu.regs with pc := s.cpu.pc + 2 } ∧ t.ram = s.ram := by
  have hp := h.answered
  refine runSeq_ends (d := { s.cpu with
      pc := s.cpu.pc + 2, data := s.b1, ea := word 0xFF s.b1, cycle := 7 }) h (by simp [State.nop5CTrace])
    (by simp [State.nop5CTrace]) ?_ rfl rfl
  simp [Cycles, State.nop5CTrace, nop5CSeq, hc, hp, Cpu.goto, Cpu.finish, dummyCycle, firstOperand, operandCycle,
    add_one_one, State.b1]

end Sys2Proof.Machine
end

