-- ==== Sys2Proof/Laws/Step.lean ====
section
/-! SUPPORT. What the step does first: at a boundary, inside a sequence, before a fetch, before an interrupt; and
what the stack holds after the pushes. -/

namespace Sys2Proof.Machine

/-- In a ready state no event is due. -/
theorem Ready.notDue {s : State} {tr : List BusRecord} (h : Ready s tr) : s.eventDue = false := by
  have := h.cpuTurn
  simp only [State.cpuTurn, Bool.and_eq_true, Bool.not_eq_true'] at this
  exact this.1.2

/-- At a boundary a ready state's step is the boundary's. -/
theorem step_boundary {s : State} {tr} (h : Ready s tr) (hc : s.cpu.cycle = 0) : step s = stepBoundary s := by
  have := Ready.notDue h
  have := h.running
  have := h.idle
  simp [step, *]

/-- With no request outstanding the boundary decides what runs (40_dispatch R202). -/
theorem stepBoundary_answered {s : State} (h : s.cpu.pendingReq = none) :
    stepBoundary s = match s.cpu.boundary s.params s.irqLine with
      | (.brk r, c) => .next { s with cpu := c, runExit := some (.brk r) }
      | (.asleep, c) => .next (idle { s with cpu := c }).settle
      | (.interrupt k, c) => runSeq (interruptSeqOf k) { s with cpu := c }
      | (.fetch, c) => (oneCycle fetchSeq { s with cpu := c }).bind afterFetch := by
  unfold stepBoundary
  rw [h]
  rfl

/-- An answered fetch goes on to its instruction (55_system R700). -/
theorem afterFetch_answered {s : State} (h : s.cpu.pendingReq = none) :
    afterFetch s = match s.currentInstr with
      | some i => if i.oneCycle || s.cpuTurn then exec i s else .next s
      | none => .next s := by
  unfold afterFetch
  rw [h]
  rfl

/-- Inside a sequence a ready state's step goes on with it. -/
theorem step_resume {s : State} {tr} (h : Ready s tr) (hc : s.cpu.cycle ≠ 0) : step s = stepResume s := by
  have := Ready.notDue h
  have := h.running
  have := h.idle
  simp [step, *]

/-- Anything pending wakes a CPU that is not stopped (60_exceptions R772). -/
theorem wakes_of_not_stopped {c : Cpu} {irq : Bool} (h : c.mode ≠ .stopped)
    (h' : irq = true ∨ c.pendNmi = true ∨ c.pendReset = true) : c.wakes irq = true := by
  unfold Cpu.wakes
  split <;> simp_all
  all_goals rcases h' with h | h | h <;> simp [h]

/-- A CPU that wakes is Running. -/
theorem wakeCheck_true {c : Cpu} {irq : Bool} (h : c.wakes irq = true) :
    c.wakeCheck irq = { c with mode := .running } := by simp [Cpu.wakeCheck, h]

/-- At a fetch the boundary chooses the fetch (40_dispatch R202). -/
theorem boundary_fetch {s : State} (h : AtFetch s) :
    s.cpu.boundary s.params s.irqLine = (.fetch, s.awakened.cpu) := by
  have hw : Cpu.wakeCheck s.irqLine { s.cpu with brk := s.cpu.breakEvaluated s.params } = s.awakened.cpu := by
    have : Cpu.wakes s.irqLine { s.cpu with brk := s.cpu.breakEvaluated s.params } = true := h.awake
    simp [Cpu.wakeCheck, this, State.awakened]
  simp only [Cpu.boundary, Cpu.evalBreaks, h.unbroken, hw]
  have : s.awakened.cpu.interruptChoice s.irqLine = none := by
    have := h.masked
    cases hi : s.irqLine <;> simp_all [Cpu.interruptChoice, State.awakened, h.noReset, h.noNmi]
  have h2 : s.awakened.cpu.mode = .running := rfl
  rw [if_pos h2, this]

/-- With no break and an interrupt chosen the boundary starts its sequence (60_exceptions R754). -/
theorem boundary_interrupt {s : State} {k : SeqKind} (hb : s.cpu.breakFound s.params = none)
    (hw : s.cpu.wakes s.irqLine = true) (hk : s.cpu.interruptChoice s.irqLine = some k) :
    s.cpu.boundary s.params s.irqLine = (.interrupt k, s.awakened.cpu.startInterrupt k) := by
  have h2 : Cpu.wakeCheck s.irqLine { s.cpu with brk := s.cpu.breakEvaluated s.params } = s.awakened.cpu :=
    wakeCheck_true hw
  simp only [Cpu.boundary, Cpu.evalBreaks, hb, h2]
  have h3 : s.awakened.cpu.mode = .running := rfl
  have h4 : s.awakened.cpu.interruptChoice s.irqLine = some k := hk
  rw [if_pos h3, h4]

/-- Readiness depends on these parts of the state only. -/
theorem Ready.of_same {s u : State} {tr : List BusRecord} (h : Ready s tr) (h1 : u.runExit = s.runExit)
    (h2 : u.suzy = s.suzy) (h3 : u.sampling = s.sampling) (h4 : u.cpu.pendingReq = s.cpu.pendingReq)
    (h5 : u.mapctl = s.mapctl) (h6 : u.traps = s.traps) (h7 : u.queue = s.queue)
    (h8 : u.now = s.now) (h9 : u.prevBus = s.prevBus) : Ready u tr := by
  refine ⟨h1 ▸ h.running, h2 ▸ h.idle, h3 ▸ h.unsampled, h4 ▸ h.answered, h5 ▸ h.isPlain, h6 ▸ h.isUntrapped, ?_⟩
  intro e he
  have := h.undisturbed e (h7 ▸ he)
  simp only [State.afterCycles, h5, h8, h9]
  exact this

/-- The stack page is RAM under every MAPCTL (20_memory R102). -/
theorem route_stackAddr (mc : Byte) (sp : Byte) : route mc (stackAddr sp) = .ram := by
  have h1 : hiByte (stackAddr sp) = 1 := hiByte_word _ _
  have : ∀ sp : Byte, stackAddr sp ≠ 0xFFF9 ∧ stackAddr sp ≠ 0xFFF8 ∧
      ¬ (0xFFFA : Addr) ≤ stackAddr sp := by decide +kernel
  obtain ⟨a, b, c⟩ := this sp
  rw [route, if_neg a, if_neg b, if_neg c, pageType, h1]; rfl

/-- Memory after PC is pushed. -/
theorem pushedPc_reads (s : State) (pc : Addr) :
    ramRead (s.pushedPc pc).ram (stackAddr s.cpu.sp) = hiByte pc ∧
      ramRead (s.pushedPc pc).ram (stackAddr (s.cpu.sp - 1)) = loByte pc ∧
      ∀ a, a ≠ stackAddr s.cpu.sp → a ≠ stackAddr (s.cpu.sp - 1) → ramRead (s.pushedPc pc).ram a = ramRead s.ram a := by
  have hn : ∀ sp : Byte, stackAddr sp ≠ stackAddr (sp - 1) := by decide +kernel
  simp only [State.pushedPc, State.stored, State.storedRam, route_stackAddr, true_or, if_true]
  refine ⟨?_, ?_, ?_⟩
  · rw [ramRead_ramWrite_ne _ _ (hn _), ramRead_ramWrite_same]
  · exact ramRead_ramWrite_same ..
  · intro a h1 h2
    rw [ramRead_ramWrite_ne _ _ h2, ramRead_ramWrite_ne _ _ h1]

/-- The status byte holds B in bit 4 and 1 in bit 5, and gives the flags back (10_state R35). -/
theorem unpack_pack (b : Bool) (f : Flags) :
    (f.pack b).getLsbD 4 = b ∧ (f.pack b).getLsbD 5 = true ∧ Flags.unpack (f.pack b) = f := by
  obtain ⟨n, v, d, i, z, c⟩ := f
  revert b n v d i z c
  decide

/-- Memory after PC and the status byte are pushed. -/
theorem pushedAll_reads (s : State) (pc : Addr) (b : Bool) :
    ramRead (s.pushedAll pc b).ram (stackAddr s.cpu.sp) = hiByte pc ∧
      ramRead (s.pushedAll pc b).ram (stackAddr (s.cpu.sp - 1)) = loByte pc ∧
      ramRead (s.pushedAll pc b).ram (stackAddr (s.cpu.sp - 2)) = s.cpu.flags.pack b ∧
      ∀ a, a ≠ stackAddr s.cpu.sp → a ≠ stackAddr (s.cpu.sp - 1) → a ≠ stackAddr (s.cpu.sp - 2) →
        ramRead (s.pushedAll pc b).ram a = ramRead s.ram a := by
  obtain ⟨e1, e2, e3⟩ := pushedPc_reads s pc
  have hn : ∀ sp : Byte, stackAddr sp ≠ stackAddr (sp - 2) := by decide +kernel
  have hn' : ∀ sp : Byte, stackAddr (sp - 1) ≠ stackAddr (sp - 2) := by decide +kernel
  simp only [State.pushedAll, State.stored, State.storedRam, route_stackAddr, true_or, if_true]
  refine ⟨?_, ?_, ?_, ?_⟩
  · rw [ramRead_ramWrite_ne _ _ (hn _)]; exact e1
  · rw [ramRead_ramWrite_ne _ _ (hn' _)]; exact e2
  · rw [ramRead_ramWrite_same]
  · intro a h1 h2 h3
    rw [ramRead_ramWrite_ne _ _ h3]; exact e3 a h1 h2

/-- An address is the word of its two bytes. -/
theorem word_hi_lo (a : Addr) : word (hiByte a) (loByte a) = a := by
  refine BitVec.eq_of_getLsbD_eq fun i hi => ?_
  have h' := BitVec.getLsbD_append (x := hiByte a) (y := loByte a) (i := i)
  refine h'.trans ?_
  by_cases h : i < 8
  · simp [h, loByte]
  · have : i - 8 < 8 := by omega
    simp [h, hiByte, this]
    congr 1
    omega

end Sys2Proof.Machine
end

