-- ==== Sys2Proof/Laws/Timers.lean ====
section
/-! SUPPORT. The timer and channel vectors: a read after a write, and the units a write leaves alone. -/

namespace Sys2Proof.Machine

theorem get_set_same {α : Type} {k : Nat} (v : Vector α k) (n : Fin k) (x : α) : (v.set n x).get n = x := by
  change (v.set n x)[n.val] = x
  simp

theorem get_set_ne {α : Type} {k : Nat} (v : Vector α k) {n m : Fin k} (x : α) (h : m ≠ n) :
    (v.set n x).get m = v.get m := by
  change (v.set n x)[m.val] = v[m.val]
  exact Vector.getElem_set_ne _ _ fun e => h (Fin.ext e.symm)

@[simp] theorem timer_setTimer_same (n : Fin 12) (u : TimerUnit) (s : State) : (s.setTimer n u).timer n = u :=
  get_set_same ..

theorem timer_setTimer_ne {n m : Fin 12} (u : TimerUnit) (s : State) (h : m ≠ n) :
    (s.setTimer n u).timer m = s.timer m := get_set_ne _ _ h

theorem timer_setTimer (n m : Fin 12) (u : TimerUnit) (s : State) :
    (s.setTimer n u).timer m = if m = n then u else s.timer m := by
  split
  · rename_i h
    rw [h]
    exact timer_setTimer_same ..
  · rename_i h
    exact timer_setTimer_ne u s h

end Sys2Proof.Machine
end

