-- ==== Sys2Proof/Tests/Slice0.lean ====
section
/-! SUPPORT. The model's own tests: ill-formed terms refused, words written out from the spec's encodings, single steps
against the vectors of 95_test_vectors, and for every obligation with hypotheses a state that meets them. -/

set_option Elab.async false

namespace Sys2Proof.Tests

open Sys2Proof.Machine

/-! ### Helpers -/

/-- The CPU of the vectors: at a boundary with PC = 0x0200, S = 0xFF, the rest 0. -/
def cpu : Cpu := { Cpu.powerOn with pendReset := false, pc := 0x0200, sp := 0xFF }

/-- RAM with the bytes of a program from an address on, and some cells. -/
def cells (a : Nat) (code : List Byte) (xs : List Host.Cell) : List Host.Cell :=
  (xs ++ code.zipIdx.map fun x => (a + x.2, x.1)).foldl (fun m x => Memory.put m x.1 x.2) []

/-- The defaults with the Rockwell bit instructions. -/
def rockwell : Params := { Params.default with rockwellBitops := true }

/-- The defaults with WAI and STP. -/
def wdc : Params := { Params.default with wdcWaiStp := true }

/-- The machine of the vectors with a program at 0x0200, some cells and a CPU. -/
def start (code : List Byte) (xs : List Host.Cell := []) (c : Cpu := cpu) : State :=
  { State.reset with ram := cells 0x200 code xs, cpu := c }

/-- A look at the state a step gives. -/
def seen {α : Type} (o : Res State) (f : State → α) : Option α :=
  match o with
  | .next t => some (f t)
  | _ => none

/-- The flags in the order NVDIZC. -/
def nvdizc (t : State) : BitVec 6 :=
  let f := t.cpu.flags
  BitVec.ofBool f.n ++ BitVec.ofBool f.v ++ BitVec.ofBool f.d ++ BitVec.ofBool f.i ++ BitVec.ofBool f.z ++
    BitVec.ofBool f.c

/-- The flags from the order NVDIZC. -/
def flagsOf (b : BitVec 6) : Flags :=
  ⟨b.getLsbD 5, b.getLsbD 4, b.getLsbD 3, b.getLsbD 2, b.getLsbD 1, b.getLsbD 0⟩

/-- The byte of RAM a state holds at an address. -/
def mem (a : Nat) (t : State) : Option Byte := Memory.get? t.ram a

/-- The kinds and addresses of the bus cycles made. -/
def bus (t : State) : List (BusKind × Addr) := t.busLog.map fun r => (r.kind, r.addr)

/-! ### WellFormed: a term that each check refuses -/

theorem test_ill_formed_alu : (Instr.lda .acc).wf = false := by decide
theorem test_ill_formed_alu_zpY : (Instr.cmp .zpY).wf = false := by decide
theorem test_ill_formed_ldx : (Instr.ldx .zpX).wf = false := by decide
theorem test_ill_formed_ldy : (Instr.ldy .zpY).wf = false := by decide
theorem test_ill_formed_bit : (Instr.bit .absY).wf = false := by decide
theorem test_ill_formed_sta : (Instr.sta .imm).wf = false := by decide
theorem test_ill_formed_stx : (Instr.stx .zpX).wf = false := by decide
theorem test_ill_formed_sty : (Instr.sty .absX).wf = false := by decide
theorem test_ill_formed_stz : (Instr.stz .ind).wf = false := by decide
theorem test_ill_formed_cpx : (Instr.cpx .zpX).wf = false := by decide
theorem test_ill_formed_shift : (Instr.asl .absY).wf = false := by decide
theorem test_ill_formed_inc : (Instr.inc .zpY).wf = false := by decide
theorem test_ill_formed_tsb : (Instr.tsb .zpX).wf = false := by decide
theorem test_ill_formed_jmp : (Instr.jmp .zp).wf = false := by decide
theorem test_ill_formed_nopOne : (Instr.nopOne 0x02).wf = false := by decide
theorem test_ill_formed_nopImm : (Instr.nopImm 0x12).wf = false := by decide
theorem test_ill_formed_nopZpX : (Instr.nopZpX 0x44).wf = false := by decide
theorem test_ill_formed_nopAbs : (Instr.nopAbs 0x5C).wf = false := by decide

/-- The Rockwell instructions, WAI and STP are absent by default, and the no-ops in their places are absent when they
are there (30_encoding R183). -/
theorem test_absent : Instr.wellFormed .default .rmb0 = false ∧ Instr.wellFormed .default .stp = false ∧
    Instr.wellFormed { Params.default with rockwellBitops := true } (.nopOne 0x07) = false ∧
    Instr.wellFormed { Params.default with wdcWaiStp := true } (.nopOne 0xCB) = false := by decide

/-- An ill-formed term is refused by its meaning, and bytes that end early by the decoder. -/
theorem test_refusals : exec (.sta .imm) State.reset = .refused .illFormed ∧
    decode .default [] = .error .noOpcode ∧
    decode .default [0xAD, 0x34] = .error (.missingOperand (.lda .abs)) := ⟨rfl, rfl, rfl⟩

/-! ### Decoding: a word for every constructor, from the bits of spec/opcode_table.json -/

/-- Every listed opcode decodes to its instruction. -/
def decodes (p : Params) (xs : List (Byte × Instr)) : Bool := xs.all fun x => decodeOpcode p x.1 == x.2

theorem test_decode_loads : decodes .default [
    (0b10100001, .lda .indX), (0b10100101, .lda .zp), (0b10101001, .lda .imm), (0b10101101, .lda .abs),
    (0b10110001, .lda .indY), (0b10110010, .lda .ind), (0b10110101, .lda .zpX), (0b10111001, .lda .absY),
    (0b10111101, .lda .absX), (0b10100110, .ldx .zp), (0b10111110, .ldx .absY), (0b10100100, .ldy .zp),
    (0b10111100, .ldy .absX), (0b10000101, .sta .zp), (0b10011101, .sta .absX), (0b10000110, .stx .zp),
    (0b10001110, .stx .abs), (0b10000100, .sty .zp), (0b10001100, .sty .abs), (0b01110100, .stz .zpX),
    (0b10011110, .stz .absX), (0b10101010, .tax), (0b10101000, .tay), (0b10001010, .txa), (0b10011000, .tya),
    (0b10111010, .tsx), (0b10011010, .txs)] = true := by decide

theorem test_decode_alu : decodes .default [
    (0b01100101, .adc .zp), (0b01111101, .adc .absX), (0b11100101, .sbc .zp), (0b11111101, .sbc .absX),
    (0b00100101, .and .zp), (0b00111101, .and .absX), (0b00000101, .ora .zp), (0b00011101, .ora .absX),
    (0b01000101, .eor .zp), (0b01011101, .eor .absX), (0b11000101, .cmp .zp), (0b11011101, .cmp .absX),
    (0b11100000, .cpx .imm), (0b11100100, .cpx .zp), (0b11000000, .cpy .imm), (0b11000100, .cpy .zp),
    (0b00101100, .bit .abs), (0b10001001, .bit .imm)] = true := by decide

theorem test_decode_rmw : decodes .default [
    (0b00001010, .asl .acc), (0b00011110, .asl .absX), (0b01001010, .lsr .acc), (0b01011110, .lsr .absX),
    (0b00101010, .rol .acc), (0b00111110, .rol .absX), (0b01101010, .ror .acc), (0b01111110, .ror .absX),
    (0b11100110, .inc .zp), (0b11111110, .inc .absX), (0b11000110, .dec .zp), (0b11011110, .dec .absX),
    (0b11101000, .inx), (0b11001000, .iny), (0b11001010, .dex), (0b10001000, .dey), (0b00000100, .tsb .zp),
    (0b00001100, .tsb .abs), (0b00010100, .trb .zp), (0b00011100, .trb .abs)] = true := by decide

theorem test_decode_control : decodes .default [
    (0b00010000, .bpl), (0b00110000, .bmi), (0b01010000, .bvc), (0b01110000, .bvs), (0b10010000, .bcc),
    (0b10110000, .bcs), (0b11010000, .bne), (0b11110000, .beq), (0b10000000, .bra), (0b01001100, .jmp .abs),
    (0b01101100, .jmp .absInd), (0b00100000, .jsr), (0b01100000, .rts), (0b01000000, .rti),
    (0b00000000, .brk)] = true := by decide

theorem test_decode_stack : decodes .default [
    (0b01001000, .pha), (0b00001000, .php), (0b11011010, .phx), (0b01011010, .phy), (0b01101000, .pla),
    (0b00101000, .plp), (0b11111010, .plx), (0b01111010, .ply), (0b00011000, .clc), (0b00111000, .sec),
    (0b01011000, .cli), (0b01111000, .sei), (0b11011000, .cld), (0b11111000, .sed), (0b10111000, .clv),
    (0b11101010, .nop), (0b00000011, .nopOne 0x03), (0b11111011, .nopOne 0xFB), (0b01000010, .nopImm 0x42),
    (0b11100010, .nopImm 0xE2), (0b01000100, .nopZp), (0b01010100, .nopZpX 0x54), (0b11110100, .nopZpX 0xF4),
    (0b11011100, .nopAbs 0xDC), (0b11111100, .nopAbs 0xFC), (0b01011100, .nop5C)] = true := by decide

theorem test_decode_conditional : decodes { Params.default with rockwellBitops := true, wdcWaiStp := true } [
    (0b00000111, .rmb0), (0b00001111, .bbr0), (0b00010111, .rmb1), (0b00011111, .bbr1), (0b00100111, .rmb2),
    (0b00101111, .bbr2), (0b00110111, .rmb3), (0b00111111, .bbr3), (0b01000111, .rmb4), (0b01001111, .bbr4),
    (0b01010111, .rmb5), (0b01011111, .bbr5), (0b01100111, .rmb6), (0b01101111, .bbr6), (0b01110111, .rmb7),
    (0b01111111, .bbr7), (0b10000111, .smb0), (0b10001111, .bbs0), (0b10010111, .smb1), (0b10011111, .bbs1),
    (0b10100111, .smb2), (0b10101111, .bbs2), (0b10110111, .smb3), (0b10111111, .bbs3), (0b11000111, .smb4),
    (0b11001011, .wai), (0b11001111, .bbs4), (0b11010111, .smb5), (0b11011011, .stp), (0b11011111, .bbs5),
    (0b11100111, .smb6), (0b11101111, .bbs6), (0b11110111, .smb7), (0b11111111, .bbs7)] = true := by decide

/-- With the defaults those opcodes are no-ops; a table word is read with its first byte lowest. -/
theorem test_decode_table_word : decodeTableWord 24 0x1234AD = some (.lda .abs) ∧
    decodeTableWord 8 0x07 = some (.nopOne 0x07) ∧ decodeTableWord 16 0x42A9 = some (.lda .imm) ∧
    decode .default [0xAD, 0x34, 0x12, 0xEA] = .ok ⟨.lda .abs, [0x34, 0x12], [0xEA]⟩ := ⟨rfl, rfl, rfl, rfl⟩

/-- What `withFetchWord` stores is what the next step runs. -/
theorem test_fetch_word : seen (step (State.reset.withFetchWord 16 0x42A9)) (fun t => t.cpu.a) = some 0x42 := by
  decide +kernel

/-! ### Single steps, against the vectors of 95_test_vectors (and hand calculation from the rules) -/

theorem test_lda_immediate :
    seen (step (start [0xA9, 0x00] [] ({ cpu with a := 0x05 })))
        (fun t => (t.cpu.a, nvdizc t, t.busLog.length)) = some (0x00, 0b000010, 2) ∧
    seen (step (start [0xA9, 0x80] [] cpu))
        (fun t => (t.cpu.a, nvdizc t, t.cpu.pc)) = some (0x80, 0b100000, 0x0202) := by
  decide +kernel

theorem test_lda_indexed :
    seen (step (start [0xB5, 0xF0] [(0x10, 0x44)] ({ cpu with x := 0x20 })))
        (fun t => (t.cpu.a, t.busLog.length)) = some (0x44, 4) ∧
    seen (step (start [0xBD, 0xF0, 0x12] [(0x1310, 0x77)] ({ cpu with x := 0x20 })))
        (fun t => (t.cpu.a, t.cpu.pc, bus t))
          = some (0x77, 0x0203, [(.fetchOpcode, 0x0200), (.fetchOperand, 0x0201), (.fetchOperand, 0x0202),
          (.discard, 0x0202), (.read, 0x1310)]) ∧
    seen (step (start [0xBD, 0x10, 0x12] [(0x1230, 0x00)] ({ cpu with x := 0x20 })))
        (fun t => (nvdizc t, t.busLog.length)) = some (0b000010, 4) := by
  decide +kernel

theorem test_lda_indirect :
    seen (step (start [0xA1, 0xFF] [(0xFF, 0x34), (0x0, 0x12), (0x1234, 0x99)] cpu))
        (fun t => (t.cpu.a, t.busLog.length)) = some (0x99, 6) ∧
    seen (step (start [0xB2, 0x20] [(0x20, 0x00), (0x21, 0x30), (0x3000, 0xA5)] cpu))
        (fun t => (t.cpu.a, t.busLog.length)) = some (0xA5, 5) := by
  decide +kernel

theorem test_ldx :
    seen (step (start [0xA2, 0x7F] [] cpu)) (fun t => (t.cpu.x, nvdizc t)) = some (0x7F, 0b000000) ∧
    seen (step (start [0xB6, 0x10] [(0x5, 0x33)] ({ cpu with y := 0xF5 })))
        (fun t => (t.cpu.x, t.busLog.length)) = some (0x33, 4) := by
  decide +kernel

theorem test_ldy :
    seen (step (start [0xA0, 0xFF] [] cpu)) (fun t => (t.cpu.y, nvdizc t)) = some (0xFF, 0b100000) := by
  decide +kernel

theorem test_sta :
    seen (step (start [0x91, 0x40] [(0x40, 0xF8), (0x41, 0x20)] ({ cpu with a := 0x55, y := 0x10 })))
        (fun t => (mem 0x2108 t, bus t))
          = some (some 0x55, [(.fetchOpcode, 0x0200), (.fetchOperand, 0x0201), (.read, 0x0040), (.read,
          0x0041), (.discard, 0x0041), (.write, 0x2108)]) := by
  decide +kernel

theorem test_stx_sty :
    seen (step (start [0x96, 0xF0] [] ({ cpu with x := 0x77, y := 0x20 })))
        (fun t => (mem 0x10 t, t.busLog.length)) = some (some 0x77, 4) ∧
    seen (step (start [0x8C, 0x34, 0x12] [] ({ cpu with y := 0x66 })))
        (fun t => (mem 0x1234 t, t.busLog.length)) = some (some 0x66, 4) := by
  decide +kernel

theorem test_stz :
    seen (step (start [0x64, 0x30] [(0x30, 0x77)] ({ cpu with flags := flagsOf 0b100001 })))
        (fun t => (mem 0x30 t, nvdizc t, t.busLog.length)) = some (some 0x00, 0b100001, 3) := by
  decide +kernel

theorem test_transfers :
    seen (step (start [0xAA] [] ({ cpu with a := 0x00, x := 0x05 })))
        (fun t => (t.cpu.x, nvdizc t, t.busLog.length)) = some (0x00, 0b000010, 2) ∧
    seen (step (start [0xBA] [] ({ cpu with sp := 0x80 }))) (fun t => (t.cpu.x, nvdizc t)) = some (0x80, 0b100000) ∧
    seen (step (start [0x9A] [] ({ cpu with x := 0x00, flags := flagsOf 0b100000 })))
        (fun t => (t.cpu.sp, nvdizc t)) = some (0x00, 0b100000) ∧
    seen (step (start [0xA8] [] ({ cpu with a := 0x81 }))) (fun t => (t.cpu.y, nvdizc t)) = some (0x81, 0b100000) ∧
    seen (step (start [0x8A] [] ({ cpu with x := 0x7E }))) (fun t => (t.cpu.a, nvdizc t)) = some (0x7E, 0b000000) ∧
    seen (step (start [0x98] [] ({ cpu with y := 0x00, a := 0x03 })))
        (fun t => (t.cpu.a, nvdizc t)) = some (0x00, 0b000010) := by
  decide +kernel

theorem test_adc_binary :
    seen (step (start [0x69, 0x22] [] ({ cpu with a := 0x10, flags := flagsOf 0b000001 })))
        (fun t => (t.cpu.a, nvdizc t)) = some (0x33, 0b000000) ∧
    seen (step (start [0x69, 0x01] [] ({ cpu with a := 0x7F })))
        (fun t => (t.cpu.a, nvdizc t)) = some (0x80, 0b110000) ∧
    seen (step (start [0x69, 0x80] [] ({ cpu with a := 0x80 })))
        (fun t => (t.cpu.a, nvdizc t)) = some (0x00, 0b010011) := by
  decide +kernel

theorem test_adc_decimal :
    seen (step (start [0x69, 0x01] [] ({ cpu with a := 0x99, flags := flagsOf 0b001000 })))
        (fun t => (t.cpu.a, nvdizc t, bus t))
          = some (0x00, 0b001011, [(.fetchOpcode, 0x0200), (.fetchOperand, 0x0201), (.discard, 0x0201)]) ∧
    seen (step (start [0x69, 0x46] [] ({ cpu with a := 0x58, flags := flagsOf 0b001001 })))
        (fun t => (t.cpu.a, nvdizc t)) = some (0x05, 0b011001) ∧
    seen (step (start [0x69, 0x01] [] ({ cpu with a := 0x0F, flags := flagsOf 0b001000 })))
        (fun t => (t.cpu.a, t.busLog.length)) = some (0x16, 3) := by
  decide +kernel

theorem test_sbc_binary :
    seen (step (start [0xE9, 0x01] [] ({ cpu with a := 0x00, flags := flagsOf 0b000001 })))
        (fun t => (t.cpu.a, nvdizc t)) = some (0xFF, 0b100000) ∧
    seen (step (start [0xE9, 0x01] [] ({ cpu with a := 0x80, flags := flagsOf 0b000001 })))
        (fun t => (t.cpu.a, nvdizc t)) = some (0x7F, 0b010001) := by
  decide +kernel

theorem test_sbc_decimal :
    seen (step (start [0xE9, 0x13] [] ({ cpu with a := 0x40, flags := flagsOf 0b001001 })))
        (fun t => (t.cpu.a, nvdizc t)) = some (0x27, 0b001001) ∧
    seen (step (start [0xE9, 0x01] [] ({ cpu with a := 0x00, flags := flagsOf 0b001001 })))
        (fun t => (t.cpu.a, nvdizc t)) = some (0x99, 0b101000) := by
  decide +kernel

theorem test_logic :
    seen (step (start [0x29, 0x0F] [] ({ cpu with a := 0xF0 })))
        (fun t => (t.cpu.a, nvdizc t)) = some (0x00, 0b000010) ∧
    seen (step (start [0x09, 0x80] [] ({ cpu with a := 0x01 })))
        (fun t => (t.cpu.a, nvdizc t)) = some (0x81, 0b100000) ∧
    seen (step (start [0x49, 0xFF] [] ({ cpu with a := 0xFF })))
        (fun t => (t.cpu.a, nvdizc t)) = some (0x00, 0b000010) := by
  decide +kernel

theorem test_compares :
    seen (step (start [0xC9, 0x41] [] ({ cpu with a := 0x40 })))
        (fun t => (t.cpu.a, nvdizc t)) = some (0x40, 0b100000) ∧
    seen (step (start [0xC9, 0x40] [] ({ cpu with a := 0x40 })))
        (fun t => (t.cpu.a, nvdizc t)) = some (0x40, 0b000011) ∧
    seen (step (start [0xE0, 0xFF] [] ({ cpu with x := 0x00 }))) (fun t => nvdizc t) = some 0b000000 ∧
    seen (step (start [0xC0, 0x01] [] ({ cpu with y := 0x80 }))) (fun t => nvdizc t) = some 0b000001 := by
  decide +kernel

theorem test_bit :
    seen (step (start [0x24, 0x10] [(0x10, 0x40)] ({ cpu with a := 0x00 })))
        (fun t => (nvdizc t, t.busLog.length)) = some (0b010010, 3) ∧
    seen (step (start [0x89, 0x00] [] ({ cpu with a := 0xFF, flags := flagsOf 0b110000 })))
        (fun t => (nvdizc t, t.busLog.length)) = some (0b110010, 2) := by
  decide +kernel

theorem test_shifts :
    seen (step (start [0x0A] [] ({ cpu with a := 0x80 }))) (fun t => (t.cpu.a, nvdizc t)) = some (0x00, 0b000011) ∧
    seen (step (start [0x4A] [] ({ cpu with a := 0x01 }))) (fun t => (t.cpu.a, nvdizc t)) = some (0x00, 0b000011) ∧
    seen (step (start [0x2A] [] ({ cpu with a := 0x80, flags := flagsOf 0b000001 })))
        (fun t => (t.cpu.a, nvdizc t)) = some (0x01, 0b000001) ∧
    seen (step (start [0x6A] [] ({ cpu with a := 0x00, flags := flagsOf 0b000001 })))
        (fun t => (t.cpu.a, nvdizc t)) = some (0x80, 0b100000) := by
  decide +kernel

theorem test_asl_memory :
    seen (step (start [0x1E, 0xFF, 0x12] [(0x1300, 0x81)] ({ cpu with x := 0x01 })))
        (fun t => (mem 0x1300 t, nvdizc t, bus t))
          = some (some 0x02, 0b000001, [(.fetchOpcode, 0x0200), (.fetchOperand, 0x0201), (.fetchOperand,
          0x0202), (.discard, 0x0202), (.read, 0x1300), (.discard, 0x1300), (.write, 0x1300)]) := by
  decide +kernel

theorem test_inc_dec :
    seen (step (start [0xEE, 0x34, 0x12] [(0x1234, 0xFF)] cpu))
        (fun t => (mem 0x1234 t, nvdizc t, t.busLog.length)) = some (some 0x00, 0b000010, 6) ∧
    seen (step (start [0xC6, 0x10] [(0x10, 0x00)] cpu))
        (fun t => (mem 0x10 t, nvdizc t, t.busLog.length)) = some (some 0xFF, 0b100000, 5) ∧
    seen (step (start [0x1A] [] ({ cpu with a := 0xFF }))) (fun t => (t.cpu.a, nvdizc t)) = some (0x00, 0b000010) ∧
    seen (step (start [0x3A] [] ({ cpu with a := 0x00 })))
        (fun t => (t.cpu.a, nvdizc t)) = some (0xFF, 0b100000) := by
  decide +kernel

theorem test_inx_dey :
    seen (step (start [0xE8] [] ({ cpu with x := 0xFF }))) (fun t => (t.cpu.x, nvdizc t)) = some (0x00, 0b000010) ∧
    seen (step (start [0x88] [] ({ cpu with y := 0x00 }))) (fun t => (t.cpu.y, nvdizc t)) = some (0xFF, 0b100000) ∧
    seen (step (start [0xC8] [] ({ cpu with y := 0x7F }))) (fun t => (t.cpu.y, nvdizc t)) = some (0x80, 0b100000) ∧
    seen (step (start [0xCA] [] ({ cpu with x := 0x01 })))
        (fun t => (t.cpu.x, nvdizc t)) = some (0x00, 0b000010) := by
  decide +kernel

theorem test_tsb_trb :
    seen (step (start [0x04, 0x10] [(0x10, 0x30)] ({ cpu with a := 0x0F })))
        (fun t => (mem 0x10 t, nvdizc t, t.busLog.length)) = some (some 0x3F, 0b000010, 5) ∧
    seen (step (start [0x14, 0x10] [(0x10, 0x31)] ({ cpu with a := 0x33 })))
        (fun t => (mem 0x10 t, nvdizc t)) = some (some 0x00, 0b000000) ∧
    seen (step (start [0x1C, 0x00, 0x30] [(0x3000, 0xFC)] ({ cpu with a := 0x03 })))
        (fun t => (mem 0x3000 t, nvdizc t, t.busLog.length)) = some (some 0xFC, 0b000010, 6) := by
  decide +kernel

theorem test_rmb_smb :
    seen (step { start [0x37, 0x10] [(0x10, 0xFF)] ({ cpu with flags := flagsOf 0b100001 }) with params := rockwell })
        (fun t => (mem 0x10 t, nvdizc t, t.busLog.length)) = some (some 0xF7, 0b100001, 5) ∧
    seen (step { start [0xF7, 0x10] [(0x10, 0x00)] cpu with params := rockwell })
        (fun t => (mem 0x10 t, t.cpu.pc)) = some (some 0x80, 0x0202) := by
  decide +kernel

theorem test_bbr_bbs :
    seen (step { start [0x0F, 0x10, 0x7F] [(0x10, 0xFE)] cpu with params := rockwell })
        (fun t => (t.cpu.pc, t.busLog.length)) = some (0x0282, 6) ∧
    seen (step { start [0xFF, 0x10, 0xFA] [(0x10, 0x7F)] cpu with params := rockwell })
        (fun t => (t.cpu.pc, t.busLog.length)) = some (0x0203, 5) ∧
    seen (step { start [0xFF, 0x10, 0x80] [(0x10, 0x80)] cpu with params := rockwell })
        (fun t => (t.cpu.pc, t.busLog.length)) = some (0x0183, 7) := by
  decide +kernel

theorem test_branches :
    seen (step (start [0x10, 0x10] [] ({ cpu with flags := flagsOf 0b100000 })))
        (fun t => (t.cpu.pc, t.busLog.length)) = some (0x0202, 2) ∧
    seen (step (start [0x30, 0x10] [] ({ cpu with flags := flagsOf 0b100000 })))
        (fun t => (t.cpu.pc, t.busLog.length)) = some (0x0212, 3) ∧
    seen (step (start [0x50, 0x10] [] cpu)) (fun t => t.cpu.pc) = some 0x0212 ∧
    seen (step (start [0x70, 0x10] [] cpu)) (fun t => t.cpu.pc) = some 0x0202 ∧
    seen (step (start [0x90, 0x10] [] cpu)) (fun t => t.cpu.pc) = some 0x0212 ∧
    seen (step (start [0xB0, 0x10] [] cpu)) (fun t => t.cpu.pc) = some 0x0202 ∧
    seen (step (start [0xF0, 0x10] [] ({ cpu with flags := flagsOf 0b000010 }))) (fun t => t.cpu.pc) = some 0x0212 ∧
    seen (step (start [0xD0, 0x02] [] ({ cpu with flags := flagsOf 0b000010 })))
        (fun t => (t.cpu.pc, t.busLog.length)) = some (0x0202, 2) ∧
    seen (step (start [0x80, 0xFE] [] cpu)) (fun t => (t.cpu.pc, t.busLog.length)) = some (0x0200, 3) := by
  decide +kernel

theorem test_jmp :
    seen (step (start [0x4C, 0x0B, 0xFE] [] cpu)) (fun t => (t.cpu.pc, t.busLog.length)) = some (0xFE0B, 3) ∧
    seen (step (start [0x6C, 0xFF, 0x12] [(0x12FF, 0x00), (0x1300, 0x40)] cpu))
        (fun t => (t.cpu.pc, t.busLog.length)) = some (0x4000, 6) ∧
    seen (step (start [0x7C, 0x00, 0x30] [(0x3002, 0x00), (0x3003, 0x40)] ({ cpu with x := 0x02 })))
        (fun t => (t.cpu.pc, t.busLog.length)) = some (0x4000, 6) := by
  decide +kernel

theorem test_jsr :
    seen (step (start [0x20, 0x00, 0x30] [] cpu))
        (fun t => (t.cpu.pc, t.cpu.sp, mem 0x1FF t, mem 0x1FE t)) = some (0x3000, 0xFD, some 0x02, some 0x02) ∧
    seen (step (start [0x20, 0x00, 0x30] [] cpu))
        (fun t => bus t)
          = some ([(.fetchOpcode, 0x0200), (.fetchOperand, 0x0201), (.discard, 0x01FF), (.write, 0x01FF),
          (.write, 0x01FE), (.fetchOperand, 0x0202)]) := by
  decide +kernel

theorem test_rts :
    seen (step (start [0x60] [(0x1FE, 0x09), (0x1FF, 0x02)] ({ cpu with sp := 0xFD })))
        (fun t => (t.cpu.pc, t.cpu.sp, bus t))
          = some (0x020A, 0xFF, [(.fetchOpcode, 0x0200), (.discard, 0x0201), (.discard, 0x01FD), (.read,
          0x01FE), (.read, 0x01FF), (.discard, 0x0209)]) := by
  decide +kernel

theorem test_rti :
    seen (step (start [0x40] [(0x1FD, 0xC3), (0x1FE, 0x34), (0x1FF, 0x12)] ({ cpu with sp := 0xFC })))
        (fun t => (t.cpu.pc, t.cpu.sp, nvdizc t, t.busLog.length)) = some (0x1234, 0xFF, 0b110011, 6) := by
  decide +kernel

theorem test_brk_ignored :
    seen (step (start [0x00, 0x42] [] cpu))
        (fun t => (t.cpu.pc, t.cpu.sp, t.busLog.length)) = some (0x0202, 0xFF, 2) := by
  decide +kernel

theorem test_push :
    seen (step (start [0x48] [] ({ cpu with a := 0x11, sp := 0x00 })))
        (fun t => (mem 0x100 t, t.cpu.sp, t.busLog.length)) = some (some 0x11, 0xFF, 3) ∧
    seen (step (start [0x08] [] ({ cpu with flags := flagsOf 0b100001 })))
        (fun t => (mem 0x1FF t, t.cpu.sp, nvdizc t)) = some (some 0xB1, 0xFE, 0b100001) ∧
    seen (step (start [0x08] [] ({ cpu with flags := flagsOf 0b011100 }))) (fun t => mem 0x1FF t) = some (some 0x7C) ∧
    seen (step (start [0xDA] [] ({ cpu with x := 0x07 }))) (fun t => mem 0x1FF t) = some (some 0x07) ∧
    seen (step (start [0x5A] [] ({ cpu with y := 0x09 }))) (fun t => mem 0x1FF t) = some (some 0x09) := by
  decide +kernel

theorem test_pull :
    seen (step (start [0x28] [(0x1FF, 0xFF)] ({ cpu with sp := 0xFE })))
        (fun t => (t.cpu.sp, nvdizc t, t.busLog.length)) = some (0xFF, 0b111111, 4) ∧
    seen (step (start [0x68] [(0x1FF, 0x80)] ({ cpu with sp := 0xFE })))
        (fun t => (t.cpu.a, nvdizc t)) = some (0x80, 0b100000) ∧
    seen (step (start [0xFA] [(0x1FF, 0x00)] ({ cpu with sp := 0xFE, x := 0x05 })))
        (fun t => (t.cpu.x, nvdizc t)) = some (0x00, 0b000010) ∧
    seen (step (start [0x7A] [(0x100, 0x03)] ({ cpu with sp := 0xFF })))
        (fun t => (t.cpu.y, t.cpu.sp)) = some (0x03, 0x00) := by
  decide +kernel

theorem test_flags :
    seen (step (start [0xF8] [] cpu)) (fun t => nvdizc t) = some 0b001000 ∧
    seen (step (start [0xD8] [] ({ cpu with flags := flagsOf 0b111111 }))) (fun t => nvdizc t) = some 0b110111 ∧
    seen (step (start [0x38] [] cpu)) (fun t => nvdizc t) = some 0b000001 ∧
    seen (step (start [0x18] [] ({ cpu with flags := flagsOf 0b111111 }))) (fun t => nvdizc t) = some 0b111110 ∧
    seen (step (start [0x78] [] cpu)) (fun t => nvdizc t) = some 0b000100 ∧
    seen (step (start [0x58] [] ({ cpu with flags := flagsOf 0b111111 }))) (fun t => nvdizc t) = some 0b111011 ∧
    seen (step (start [0xB8] [] ({ cpu with flags := flagsOf 0b111111 }))) (fun t => nvdizc t) = some 0b101111 := by
  decide +kernel

theorem test_no_ops :
    seen (step (start [0xEA] [] cpu)) (fun t => (t.cpu.pc, t.busLog.length)) = some (0x0201, 2) ∧
    seen (step (start [0x03] [] cpu))
        (fun t => (t.cpu.pc, t.busLog.length, t.cpu.trace)) = some (0x0201, 1, [⟨0x0200, 0x03⟩]) ∧
    seen (step (start [0x02, 0x00] [] cpu)) (fun t => (t.cpu.pc, t.busLog.length)) = some (0x0202, 2) ∧
    seen (step (start [0x44, 0x10] [] cpu))
        (fun t => (t.cpu.pc, t.busLog.length, t.cpu.trace)) = some (0x0202, 3, [⟨0x0200, 0x44⟩]) ∧
    seen (step (start [0x54, 0x10] [] cpu)) (fun t => (t.cpu.pc, t.busLog.length)) = some (0x0202, 4) ∧
    seen (step (start [0xDC, 0x00, 0x30] [] cpu)) (fun t => (t.cpu.pc, t.busLog.length)) = some (0x0203, 4) ∧
    seen (step (start [0x5C, 0x34, 0x12] [] cpu))
        (fun t => (t.cpu.pc, t.busLog.length, t.cpu.trace)) = some (0x0203, 8, [⟨0x0200, 0x5C⟩]) := by
  decide +kernel

theorem test_wai_stp :
    seen (step { start [0xCB] [] cpu with params := wdc })
        (fun t => (t.cpu.mode, t.busLog.length, t.cpu.pc)) = some (.waiting, 3, 0x0201) ∧
    seen (step { start [0xDB] [] cpu with params := wdc })
        (fun t => (t.cpu.mode, t.busLog.length)) = some (.stopped, 3) ∧
    seen (step (start [0xCB] [] cpu)) (fun t => (t.cpu.mode, t.busLog.length)) = some (.running, 1) := by
  decide +kernel
/-! ### Devices, against the vectors of 95_test_vectors sections 2.9 to 2.16 -/

/-- Timer 0 of vector T1: backup 3, count 3, CTLA = 0x98 written at tick 1000. -/
def timerT1 : State :=
  (chipWrite 1000 0xFD01 0x98 (chipWrite 1000 0xFD02 3 (chipWrite 1000 0xFD00 3 State.reset).1).1).1

theorem test_timer_count : (timerT1.timer 0).expectedFireTick = 1064 ∧
    [1000, 1016, 1048, 1063].map (fun t => chipValue t 0xFD02 timerT1) = [3, 2, 0, 0] := by decide +kernel

theorem test_timer_fire : let y := fireAction 0 1064 timerT1
    (y.1.timer 0).done = true ∧ y.1.irqLatch = 1 ∧ (y.1.timer 0).count = 3 ∧
      (y.1.timer 0).expectedFireTick = 1128 ∧ y.1.display.row = 1 := by decide +kernel

theorem test_timer_restart : let s := (chipWrite 1030 0xFD01 0x98 timerT1).1
    (s.timer 0).expectedFireTick = 1078 ∧ ((fireAction 0 1064 s).1.timer 0).done = false ∧
      (fireAction 0 1064 s).2 = [] := by decide +kernel

/-- Vector T6: timers 1, 3 and 5 set up as a cascade, all written at tick 0. -/
def timersT6 : State :=
  [(0xFD0C, 1), (0xFD0E, 1), (0xFD0D, 0x1F), (0xFD15, 0x1F), (0xFD05, 0x18)].foldl
    (fun s (w : Addr × Byte) => (chipWrite 0 w.1 w.2 s).1) State.reset

theorem test_timer_cascade : let s := (fireAction 1 16 timersT6).1
    let u := (fireAction 1 32 s).1
    (s.timer 3).count = 0 ∧ (s.timer 5).done = false ∧ (u.timer 3).count = 1 ∧ (u.timer 5).done = true := by
  decide +kernel

theorem test_timer_read_back :
    chipValue 5 0xFD01 (chipWrite 5 0xFD01 0xF8 State.reset).1 = 0x98 := by decide +kernel

/-- The bits of the first triggers of a channel, the first on the left (vectors 2.12). -/
def lfsrBits (invert : Bool) (taps shift : BitVec 12) (n : Nat) : List Bool :=
  ((List.range n).foldl (fun x _ =>
    let ch := AudioChannel.trigger invert x.1
    (ch, x.2 ++ [ch.lastParity])) ((⟨shift, taps, 0, false, 0, false⟩ : AudioChannel), [])).2

theorem test_lfsr : (lfsrBits false 0x881 0x001 24).map Bool.toNat =
      [1, 1, 1, 1, 1, 1, 1, 0, 1, 0, 1, 1, 1, 1, 1, 0, 0, 1, 1, 0, 0, 1, 1, 0] ∧
    (lfsrBits true 0x001 0x000 4) = [true, false, true, false] := by decide +kernel

theorem test_audio_output :
    (AudioChannel.trigger false ⟨0x001, 0x001, 0x20, true, 0x70, false⟩).lastOutput = 0x7F ∧
    (AudioChannel.trigger false ⟨0x001, 0xC00, 0x10, true, 0x90, false⟩).lastOutput = 0x80 ∧
    (AudioChannel.trigger false ⟨0x000, 0x001, 0x80, false, 0, false⟩).lastOutput = 0x80 := by decide

theorem test_audio_registers :
    ((chipWrite 0 0xFD21 0xC1 State.reset).1.audio.get 0).tapMask = 0xC01 ∧
    chipValue 0 0xFD21 (chipWrite 0 0xFD21 0xC1 State.reset).1 = 0xC1 := by decide +kernel

theorem test_latch : let s := { State.reset with irqLatch := 0x05 }
    let u := (chipWrite 0 0xFD81 0x80 (chipWrite 0 0xFD80 0x01 s).1).1
    u.irqLatch = 0x84 ∧ chipValue 0 0xFD80 u = 0x84 := by decide

theorem test_serial : let s := (chipWrite 0 0xFD80 0x10 (chipWrite 0 0xFD8C 0x80 State.reset).1).1
    let u := (chipWrite 0 0xFD80 0x10 (chipWrite 0 0xFD8C 0x00 s).1).1
    let r := serialReceive 0x5A State.reset
    s.irqLatch = 0x10 ∧ u.irqLatch = 0 ∧ chipValue 0 0xFD8C r = 0xE0 ∧ chipValue 0 0xFD8D r = 0x5A ∧
      (chipReadEffect 0xFD8D r).serial.rxReady = false := by decide

/-- Vector "RMW on SERDAT": INC $FD8D. -/
theorem test_rmw_serdat :
    seen (step { start [0xEE, 0x8D, 0xFD] with serial := ⟨0, false, 0x10, true⟩ })
      (fun t => (t.serialOut, t.serial.rxReady)) = some ([0x11], false) := by decide +kernel

theorem test_parallel : ({ State.reset with ioDir := 0x0F, ioDat := 0xA5, ioIn := 0x3C } : State).iodat = 0x35 := by
  decide

theorem test_queue :
    let q := [⟨.timer 0, 100⟩, ⟨.timer 2, 50⟩, ⟨.audioSample, 100⟩, ⟨.displayDma, 75⟩]
    let r := popEarliest 0 (cancel .audioSample (pushAll q []))
    let r' := popEarliest 0 r.2.1
    r.1 = ⟨.timer 2, 50⟩ ∧ r'.1 = ⟨.displayDma, 75⟩ ∧ (popEarliest 0 r'.2.1).1 = ⟨.timer 0, 100⟩ := by
  decide +kernel

/-- The state an outcome gives. -/
def got (o : Res State) : State :=
  match o with
  | .next t => t
  | _ => State.reset

theorem eq_got {o : Res State} (h : seen o (fun _ => ()) = some ()) : o = .next (got o) := by
  cases o with
  | next t => rfl
  | fault r => cases h
  | refused r => cases h

/-- LDA of a refused register ends the run before the read, with the operand bytes fetched and the request outstanding
(R668, R703 step 1); the host cannot advance a CPU with a request outstanding (R712). -/
theorem test_refused_register : let t := got (step (start [0xAD, 0x88, 0xFD]))
    t.runExit = some (.refused 0xFD88) ∧ t.cpu.pendingReq = some (.read 0xFD88) ∧ t.cpu.pc = 0x0203 ∧
    t.busLog.length = 3 ∧ step t = .refused .runExited ∧
    step (hostRun .free t) = .refused .requestOutstanding :=
  ⟨by decide +kernel, by decide +kernel, by decide +kernel, by decide +kernel, rfl, rfl⟩

/-- Ticks are 64 bits: a fire planned past the last tick wraps, and the counter's own sum does not (00_scope section 6,
R60, R523). -/
theorem test_ticks : (⟨0, 3, true, true, false, 0, 0, 0, false⟩ : TimerUnit).fireTick 0xFFFFFFFFFFFFFFF0 = 0x30 ∧
    advanceTick 0xFFFFFFFFFFFFFFF0 15 = 0xFFFFFFFFFFFFFFFF := by decide +kernel

theorem test_routing : ([(0, 0xFBFF), (0, 0xFC10), (0, 0xFD00), (0, 0xFFF7), (0, 0xFFF8), (0, 0xFFF9), (4, 0xFFF7),
      (4, 0xFFFC), (8, 0xFFFC), (0x0F, 0xFFF9)] : List (Byte × Addr)).map (fun x => route x.1 x.2) =
    [.ram, .sprite, .chip, .rom, .ram, .mapctl, .ram, .rom, .ram, .mapctl] := by decide

/-- "Power-on reset" and "NMI over IRQ" of section 2.7. -/
theorem test_reset_sequence :
    seen (step { State.reset with rom := [(0x1FC, 0x34), (0x1FD, 0x12)] })
      (fun t => (t.cpu.pc, t.cpu.sp, nvdizc t, t.busLog.length)) = some (0x1234, 0xFD, 0b000100, 7) := by
  decide +kernel

theorem test_nmi :
    seen (step { start [] [(0xFFFA, 0x00), (0xFFFB, 0x50)] { cpu with pc := 0x0300, pendNmi := true } with
        mapctl := 8, irqLatch := 1 })
      (fun t => (t.cpu.pc, t.cpu.sp, mem 0x1FF t, mem 0x1FD t)) = some (0x5000, 0xFC, some 0x03, some 0x20) := by
  decide +kernel

theorem test_irq :
    seen (step { start [] [] { cpu with pc := 0x0300, flags := flagsOf 0b000001 } with
        irqLatch := 1, rom := [(0x1FE, 0x00), (0x1FF, 0x40)] })
      (fun t => (t.cpu.pc, nvdizc t, mem 0x1FD t)) = some (0x4000, 0b000101, some 0x21) := by decide +kernel

theorem test_brk :
    seen (step { start [0x00, 0x10] [] { cpu with flags := flagsOf 0b100001 } with
        rom := [(0x1FE, 0x00), (0x1FF, 0x00)] })
      (fun t => (t.cpu.pc, nvdizc t, mem 0x1FF t, mem 0x1FD t)) =
        some (0x0000, 0b100101, some 0x02, some 0xB1) := by decide +kernel

/-! ### For every obligation with hypotheses, a state that meets them -/

/-- A state in which nothing comes between the bus cycles `tr`. -/
def quiet (s : State) (tr : List BusRecord) : Bool :=
  s.runExit.isNone && !s.suzy.busy && !s.sampling.active && s.cpu.pendingReq.isNone && s.traps.isEmpty &&
    s.queue.isEmpty && tr.all fun r => plain s.mapctl r.addr

theorem ready_of_quiet {s : State} {tr : List BusRecord} (h : quiet s tr = true) : Ready s tr := by
  simp only [quiet, Bool.and_eq_true, Bool.not_eq_true', Option.isNone_iff_eq_none, List.isEmpty_iff,
    List.all_eq_true] at h
  obtain ⟨⟨⟨⟨⟨⟨h1, h2⟩, h3⟩, h4⟩, h5⟩, h6⟩, h7⟩ := h
  refine ⟨h1, h2, fun h => ?_, h4, h7, fun r _ => ?_, fun e he => ?_⟩
  · rw [h3] at h
    cases h.1
  · rw [h5]
    rfl
  · rw [h6] at he
    cases he

/-- The machine just after the fetch of an opcode at 0x0200. -/
def mid (code : List Byte) (xs : List Host.Cell := []) (c : Cpu := cpu) : State :=
  start code xs { c with pc := 0x0201, cycle := 1 }

/-- Cells that give every addressing mode its address: pointers at 0x10, 0x20 and 0xFF. -/
def pointers : List Host.Cell :=
  [(0x00, 0x12), (0x10, 0xF0), (0x11, 0x12), (0x20, 0x00), (0x21, 0x30), (0xFF, 0x34)]

/-- After the fetch of an opcode with operand bytes F0 12, or with the operand byte FF, and X = Y = 0x20. -/
def mem12F0 : State := mid [0, 0xF0, 0x12] pointers { cpu with x := 0x20, y := 0x20 }
def memFF : State := mid [0, 0xFF] pointers
def mem10 : State := mid [0, 0x10] pointers { cpu with y := 0x20 }

theorem witness_DecodeOfEncode : Instr.wellFormed .default (.lda .absX) = true ∧
    Instr.wellFormed .default (.nopOne 0xFF) = true ∧ Instr.wellFormed .default .brk = true := by decide

theorem witness_StepRunsDecodedInstruction : let s := start [0xA9, 0x80, 0x00]
    AtFetch s ∧ Ready s [] ∧ plain s.mapctl s.cpu.pc = true ∧ untrapped s.traps s.opcodeFetch = true ∧
      decode s.params [s.byteAt s.cpu.pc, s.byteAt (s.cpu.pc + 1), s.byteAt (s.cpu.pc + 2)] =
        .ok ⟨.lda .imm, [0x80], [0x00]⟩ :=
  ⟨⟨rfl, rfl, rfl, rfl, rfl, by decide⟩, ready_of_quiet rfl, by decide, rfl, rfl⟩

theorem witness_StepResumesInstruction :
    let s := mid [0xA9, 0x80] [] { cpu with opcode := .instr 0xA9 }
    Ready s [] ∧ s.cpu.cycle ≠ 0 ∧ s.cpu.opcode = .instr 0xA9 := ⟨ready_of_quiet rfl, by decide, rfl⟩

/-- Immediate, absolute,X over a page boundary, and (zero page,X) with the pointer at 0xFF. -/
theorem witness_LoadsComplete :
    (mem12F0.cpu.cycle = 1 ∧ Ready mem12F0 (mem12F0.readTrace .imm false) ∧
      (Instr.lda .imm).wf = true ∧ (Instr.ldx .imm).wf = true ∧ (Instr.ldy .imm).wf = true) ∧
    (Ready mem12F0 (mem12F0.readTrace .absX false) ∧ (Instr.lda .absX).wf = true ∧ (Instr.ldy .absX).wf = true) ∧
    (memFF.cpu.cycle = 1 ∧ Ready memFF (memFF.readTrace .indX false) ∧ (Instr.lda .indX).wf = true) :=
  ⟨⟨rfl, ready_of_quiet (by decide +kernel), rfl, rfl, rfl⟩, ⟨ready_of_quiet (by decide +kernel), rfl, rfl⟩,
    rfl, ready_of_quiet (by decide +kernel), rfl⟩

theorem witness_StoresComplete : mem10.cpu.cycle = 1 ∧
    ((Instr.sta .indY).wf = true ∧ Ready mem10 (mem10.writeTrace .indY mem10.cpu.a)) ∧
    ((Instr.stx .zp).wf = true ∧ Ready mem10 (mem10.writeTrace .zp mem10.cpu.x)) ∧
    ((Instr.sty .zp).wf = true ∧ Ready mem10 (mem10.writeTrace .zp mem10.cpu.y)) ∧
    ((Instr.stz .absX).wf = true ∧ Ready mem12F0 (mem12F0.writeTrace .absX 0)) :=
  ⟨rfl, ⟨rfl, ready_of_quiet (by decide +kernel)⟩, ⟨rfl, ready_of_quiet (by decide +kernel)⟩,
    ⟨rfl, ready_of_quiet (by decide +kernel)⟩, rfl, ready_of_quiet (by decide +kernel)⟩

/-- For `TransfersComplete`, `FlagInstructionsComplete`, `RegisterFormsComplete` and `HaltsComplete`. -/
theorem witness_implied : let s := mid [0xAA]
    s.cpu.cycle = 1 ∧ Ready s [s.dummy s.cpu.pc] ∧ Ready s [s.dummy s.cpu.pc, s.dummy s.cpu.pc] :=
  ⟨rfl, ready_of_quiet (by decide +kernel), ready_of_quiet (by decide +kernel)⟩

theorem witness_AddAndSubtractComplete : let s := mid [0x69, 0x01] [] { cpu with flags := flagsOf 0b001000 }
    (Instr.adc .imm).wf = true ∧ s.cpu.cycle = 1 ∧
      Ready s (s.readTrace .imm (s.params.decimalExtraCycle && s.cpu.flags.d)) :=
  ⟨rfl, rfl, ready_of_quiet (by decide +kernel)⟩

/-- For `BinaryAddIsAddition`, `BinarySubtractIsSubtraction` and `DecimalArithmeticOnBcd`, with the digits 0, 9, 15. -/
theorem witness_arithmetic : (flagsOf 0b000001).d = false ∧ (flagsOf 0b001001).d = true ∧
    0 < 10 ∧ 9 < 10 ∧ 15 < 16 := by decide

theorem witness_LogicCompletes : (Instr.and .ind).wf = true ∧ mem10.cpu.cycle = 1 ∧
    Ready mem10 (mem10.readTrace .ind false) := ⟨rfl, rfl, ready_of_quiet (by decide +kernel)⟩

/-- For `ComparesComplete` and `BitTestCompletes`, immediate and absolute. -/
theorem witness_compares : mem12F0.cpu.cycle = 1 ∧
    (∀ m ∈ [Mode.imm, .abs], Ready mem12F0 (mem12F0.readTrace m false) ∧ (Instr.cmp m).wf = true ∧
      (Instr.cpx m).wf = true ∧ (Instr.cpy m).wf = true ∧ (Instr.bit m).wf = true) := by
  refine ⟨rfl, fun m hm => ⟨ready_of_quiet ?_, ?_⟩⟩
  · revert m
    decide +kernel
  · revert m
    decide

/-- For `MemoryShiftsComplete`, `TestAndSetBitsComplete` and `BitSetAndResetComplete`. -/
theorem witness_memory_forms : mem12F0.cpu.cycle = 1 ∧
    (∀ m ∈ [Mode.zp, .zpX, .abs, .absX], (Instr.asl m).wf = true ∧ m ≠ .acc ∧
      ∀ b, ∀ v ∈ [(0x00 : Byte), 0xFF], Ready mem12F0 (mem12F0.rmwTrace m b v)) ∧
    (Instr.tsb .zp).wf = true ∧ (Instr.tsb .abs).wf = true := by
  refine ⟨rfl, fun m hm => ⟨?_, ?_, fun b v hv => ready_of_quiet ?_⟩, rfl, rfl⟩
  · revert m
    decide
  · revert m
    decide
  · revert b m v
    decide +kernel

/-- Not taken, taken within the page, and taken over a page boundary. -/
theorem witness_BranchesComplete : ∀ b, ∀ o ∈ [(0x10 : Byte), 0x7F, 0x80], let s := mid [0x80, o]
    s.cpu.cycle = 1 ∧ Ready s (s.branchTrace b) := by
  refine fun b o ho => ⟨rfl, ready_of_quiet ?_⟩
  revert b o
  decide +kernel

theorem witness_BitBranchesComplete : ∀ b, ∀ o ∈ [(0x10 : Byte), 0x80], let s := mid [0x0F, 0xFF, o]
    s.cpu.cycle = 1 ∧ Ready s (s.bitBranchTrace b) := by
  refine fun b o ho => ⟨rfl, ready_of_quiet ?_⟩
  revert b o
  decide +kernel

/-- The pointer at 0x12FF, whose second byte is at 0x1300. -/
theorem witness_JumpsComplete : let s := mid [0x6C, 0xFF, 0x12]
    s.cpu.cycle = 1 ∧ Ready s [s.opnd s.cpu.pc, s.opnd (s.cpu.pc + 1)] ∧ Ready s (s.jmpIndTrace .absInd) ∧
      Ready s (s.jmpIndTrace .absIndX) :=
  ⟨rfl, ready_of_quiet (by decide +kernel), ready_of_quiet (by decide +kernel), ready_of_quiet (by decide +kernel)⟩

theorem witness_CallCompletes : let s := mid [0x20, 0x00, 0x30] [] { cpu with sp := 0x00 }
    s.cpu.cycle = 1 ∧ Ready s s.jsrTrace := ⟨rfl, ready_of_quiet (by decide +kernel)⟩

/-- For `SubroutineReturnCompletes` and `InterruptReturnCompletes`, the stack wrapping from 0x01FF to 0x0100. -/
theorem witness_returns : let s := mid [0x60] [(0x1FF, 0x09), (0x100, 0x02)] { cpu with sp := 0xFE }
    s.cpu.cycle = 1 ∧ Ready s s.rtsTrace ∧ Ready s s.rtiTrace :=
  ⟨rfl, ready_of_quiet (by decide +kernel), ready_of_quiet (by decide +kernel)⟩

theorem witness_BreakCompletes : let s := mid [0x00, 0x42]
    let u := mid [0x00, 0x10]
    (s.cpu.cycle = 1 ∧ s.params.brkSoftIgnoreSig = some s.b1 ∧ Ready s [s.opnd s.cpu.pc]) ∧
    (u.cpu.cycle = 1 ∧ u.params.brkSoftIgnoreSig ≠ some u.b1 ∧
      Ready u (u.opnd u.cpu.pc :: u.entryTrace (u.cpu.pc + 1) true 0xFFFE)) :=
  ⟨⟨rfl, rfl, ready_of_quiet (by decide +kernel)⟩, rfl, by decide +kernel, ready_of_quiet (by decide +kernel)⟩

/-- For `PushesComplete` and `PullsComplete`, at both ends of the stack page. -/
theorem witness_stack : ∀ sp ∈ [(0x00 : Byte), 0xFF], ∀ v ∈ [(0x00 : Byte), 0x7F, 0x30],
    let s := mid [0x48] [] { cpu with sp := sp }
    s.cpu.cycle = 1 ∧ Ready s (s.pushTrace v) ∧ Ready s s.pullTrace := by
  refine fun sp hs v hv => ⟨rfl, ready_of_quiet ?_, ready_of_quiet ?_⟩
  · revert sp v
    decide +kernel
  · revert sp
    decide +kernel

theorem witness_NoOpsComplete : let s := mem12F0
    s.cpu.cycle = 1 ∧ Ready s [s.dummy s.cpu.pc] ∧ Ready s [] ∧ Ready s (s.readTrace .imm false) ∧
      Ready s (s.readTrace .zp false) ∧ Ready s (s.readTrace .zpX false) ∧ Ready s (s.readTrace .abs false) ∧
      Ready s s.nop5CTrace ∧ (Instr.nopOne 0x03).wf = true ∧ (Instr.nopImm 0xE2).wf = true ∧
      (Instr.nopZpX 0xF4).wf = true ∧ (Instr.nopAbs 0xFC).wf = true := by
  refine ⟨rfl, ?_, ?_, ?_, ?_, ?_, ?_, ?_, rfl, rfl, rfl, rfl⟩
  all_goals exact ready_of_quiet (by decide +kernel)

theorem witness_ResetSequenceTaken : let s := State.reset
    s.cpu.cycle = 0 ∧ s.cpu.breakFound s.params = none ∧ s.cpu.pendReset = true ∧ Ready s s.resetTrace :=
  ⟨rfl, rfl, rfl, ready_of_quiet (by decide +kernel)⟩

/-- A machine at a boundary with both an NMI pending, or not, and the IRQ line high, asleep. -/
def asked (nmi : Bool) : State :=
  { start [] [(0xFFFA, 0x00), (0xFFFB, 0x50), (0xFFFE, 0x00), (0xFFFF, 0x40)]
      { cpu with pendNmi := nmi, mode := .sleeping } with mapctl := 8, irqLatch := 1 }

theorem witness_InterruptTaken : ∀ nmi, TakesInterrupt nmi (asked nmi) ∧
    Ready (asked nmi) ((asked nmi).interruptTrace (if nmi then 0xFFFA else 0xFFFE)) := by
  refine fun nmi => ⟨⟨rfl, ?_, ?_, rfl, ?_⟩, ready_of_quiet ?_⟩
  all_goals
    revert nmi
    decide +kernel

/-- What follows an entry: the same memory and S, just after the fetch of a return. -/
def back (t : State) : State := { t with cpu := { t.cpu with pc := 0x3001, cycle := 1 }, now := 0 }

/-- JSR just after its fetch. -/
def called : State := mid [0x20, 0x00, 0x30] [] { cpu with opcode := .instr 0x20 }

theorem witness_ReturnsUndoEntries :
    (∀ nmi, step (asked nmi) = .next (got (step (asked nmi))) ∧
      Ready (back (got (step (asked nmi)))) (back (got (step (asked nmi)))).rtiTrace) ∧
    (called.cpu.cycle = 1 ∧ Ready called called.jsrTrace ∧ exec .jsr called = .next (got (exec .jsr called)) ∧
      Ready (back (got (exec .jsr called))) (back (got (exec .jsr called))).rtsTrace) := by
  refine ⟨fun nmi => ⟨eq_got ?_, ready_of_quiet ?_⟩, rfl, ready_of_quiet (by decide +kernel),
    eq_got (by decide +kernel), ready_of_quiet (by decide +kernel)⟩
  all_goals
    revert nmi
    decide +kernel

/-- A machine at the boundary after a sequence, with a break armed. -/
def armed (b : BreakState) (k : SeqKind) : State := start [0xEA] [] { cpu with brk := b, opcode := k }

/-- After an RTS, one state for each condition that holds, TRAP to STEP_OUT; after a JSR, a step-over that becomes deep, and
no condition holds. -/
theorem witness_BreaksStopTheRun : let b := { BreakState.idle with evalPending := true }
    (∀ x ∈ [(BreakReason.trap, { b with fromTrap := true }), (.next, { b with next := true }),
        (.stepIn, { b with stepIn := true }), (.stepOver, { b with stepOver := true }),
        (.stepOver, { b with stepOver := true, stepDeep := true, stepSP := 0xFF }),
        (.stepOut, { b with stepOver := true, stepDeep := true, stepOut := true, stepSP := 0xFE })],
      let s := armed x.2 (.instr 0x60)
      s.cpu.cycle = 0 ∧ Ready s [] ∧ (x.1 ≠ .stepOut → s.cpu.breakFound s.params = some x.1)) ∧
    (let s := armed { b with stepOver := true, stepOut := true, stepSP := 0xFE } (.instr 0x20)
     Ready s [] ∧ s.cpu.breakFound s.params = none ∧ (s.cpu.breakEvaluated s.params).stepDeep = true ∧
       (s.cpu.breakEvaluated s.params).stepOut = true) := by
  refine ⟨fun x hx => ⟨rfl, ready_of_quiet rfl, ?_⟩, ready_of_quiet rfl, by decide, by decide, by decide⟩
  revert x
  decide

/-- Asleep with nothing to wake it, and asleep with the IRQ line high and I set. -/
theorem witness_SleepAndWake :
    (State.reset.mapctl.getLsbD 1 = false ∧ ∀ w, untrapped State.reset.traps ⟨.write, 0xFD91, w⟩ = true) ∧
    let s := start [0xEA] [] { cpu with mode := .sleeping }
    let u := { start [0xEA] [] { cpu with mode := .waiting, flags := flagsOf 0b000100 } with irqLatch := 1 }
    (s.cpu.cycle = 0 ∧ Ready s [] ∧ s.cpu.breakFound s.params = none ∧ s.cpu.pendReset = false ∧
      s.cpu.pendNmi = false ∧ s.cpu.mode ≠ .running ∧ s.irqLine = false ∧ peekEarliestTick s.queue = none) ∧
    (Ready { s with queue := [⟨.timer 0, 1⟩] } [] ∧
      peekEarliestTick ({ s with queue := [⟨.timer 0, 1⟩] } : State).queue = some 1) ∧
    (u.cpu.cycle = 0 ∧ Ready u [] ∧ u.cpu.breakFound u.params = none ∧ u.cpu.pendReset = false ∧
      u.cpu.pendNmi = false ∧ u.cpu.mode ≠ .stopped ∧ u.irqLine = true ∧ u.cpu.flags.i = true ∧
      plain u.mapctl u.cpu.pc = true ∧ untrapped u.traps u.opcodeFetch = true) := by
  refine ⟨⟨rfl, fun _ => rfl⟩, ⟨rfl, ready_of_quiet rfl, rfl, rfl, rfl, by decide, rfl, rfl⟩, ⟨⟨rfl, rfl, by simp [start, State.reset],
    rfl, by simp, by simp, ?_⟩, rfl⟩, ⟨rfl, ready_of_quiet rfl, rfl, rfl, rfl, by decide, rfl, rfl, by decide, rfl⟩⟩
  intro e he
  cases he
  decide

/-- The last RAM address, the first vector byte in ROM, MAPCTL, and the first and the last address of either chip, with no
trap. -/
theorem witness_PlainAccesses : (∀ w, untrapped State.reset.traps ⟨.read, 0xFFF8, w⟩ = true) ∧
    route State.reset.mapctl 0xFFF8 = .ram ∧ route State.reset.mapctl 0xFFFA = .rom ∧
    route State.reset.mapctl 0xFFF9 = .mapctl ∧
    route State.reset.mapctl 0xFD00 = .chip ∧ route State.reset.mapctl 0xFDFF = .chip ∧
    route State.reset.mapctl 0xFC00 = .sprite ∧ route State.reset.mapctl 0xFCFF = .sprite :=
  ⟨fun _ => rfl, by decide, by decide, by decide, by decide, by decide, by decide, by decide⟩

/-- The first and the last refused register, and their neighbours. -/
theorem witness_RefusedRegistersStop :
    State.reset.cpu.pendingReq = none ∧ State.reset.mapctl.getLsbD 1 = false ∧
    [0xFD84, 0xFD89, 0xFD90, 0xFD93, 0xFD9C, 0xFD9E].all (fun n => refusedAccess 0 (BitVec.ofNat 16 n)) = true ∧
    [0xFD83, 0xFD8A, 0xFD91, 0xFD92, 0xFD9B, 0xFD9F].all (fun n => !refusedAccess 0 (BitVec.ofNat 16 n)) = true := by
  decide +kernel

/-- The first and the last register of each range of storage registers. -/
theorem witness_StorageRegistersReadBack :
    [0xFD00, 0xFD1C, 0xFD20, 0xFD3C, 0xFD40, 0xFD44, 0xFD50, 0xFD8A, 0xFDA0, 0xFDBF].all (fun n =>
      (0xFD00 ≤ n && n < 0xFD20 && n % 4 == 0) || (0xFD20 ≤ n && n < 0xFD40 && n % 8 < 5) ||
        (0xFD40 ≤ n && n ≤ 0xFD44) || n == 0xFD50 || n == 0xFD8A || (0xFDA0 ≤ n && n ≤ 0xFDBF)) = true ∧
    [0xFD45, 0xFD4F, 0xFD51, 0xFD7F, 0xFD82, 0xFD83, 0xFD8E, 0xFD8F, 0xFD96, 0xFD9B, 0xFD9F, 0xFDC0, 0xFDFF].all
      (fun n => chipReg (BitVec.ofNat 16 n) == .unused) = true := by
  decide

theorem witness_InterruptLatchAndSerial : State.reset.serial.txBusy = false := rfl

/-- Units 0 and 8: self-clocked within the 64 bits, not counting, and one-shot and done, which a write that clears done
starts. -/
theorem witness_CountWritePlansTheFire :
    let on : TimerUnit := ⟨3, 3, true, true, false, 0, 0, 64, false⟩
    let off : TimerUnit := { on with countEnabled := false, expectedFireTick := 0 }
    let shot : TimerUnit := { on with reloadEnabled := false, done := true, expectedFireTick := 0 }
    on.selfClocked Params.default = true ∧ off.selfClocked Params.default = false ∧
    shot.selfClocked Params.default = false ∧ (shot.withControlB 0).selfClocked Params.default = true ∧
    (0 : Tick).toNat + (on.count.toNat + 1) * (16 * 2 ^ on.clockDivider.toNat) < 2 ^ 64 ∧
    (0 : Fin 12).val < 8 ∧ (8 : Fin 12).val = 8 + (0 : Fin 4).val := by decide +kernel

/-- A stale event, a live one of a reloading unit, and one of a one-shot unit, gated by done and not. -/
theorem witness_TimerFireReloads :
    let s := timerT1.setTimer 1 { TimerUnit.zero with countEnabled := true, expectedFireTick := 16 }
    (1000 ≠ (s.timer 0).expectedFireTick ∧ (s.timer 2).expectedFireTick = 0) ∧
    (1064 = (s.timer 0).expectedFireTick ∧ (s.timer 0).countEnabled = true ∧ (s.timer 0).clockDivider ≠ 7 ∧
      (s.timer 0).interruptEnabled = true ∧ (s.timer 0).reloadEnabled = true) ∧
    (16 = (s.timer 1).expectedFireTick ∧ (s.timer 1).countEnabled = true ∧ (s.timer 1).clockDivider ≠ 7 ∧
      (s.timer 1).reloadEnabled = false ∧ s.params.timerDoneGates = true ∧
      { s.params with timerDoneGates := false }.timerDoneGates = false) := by decide +kernel

/-- Unit 1 fires into a counting unit 3, whose count is 1; into one whose count is 0; and into one that does not
link. Unit 4 fires, which has no successor. -/
theorem witness_BorrowReachesTheSuccessor : let s := timersT6
    let u := s.setTimer 3 { s.timer 3 with count := 0 }
    let w := s.setTimer 3 { s.timer 3 with clockDivider := 6 }
    16 = (s.timer 1).expectedFireTick ∧ (s.timer 3).clockDivider = 7 ∧ (s.timer 3).countEnabled = true ∧
      (s.timer 3).done = false ∧ (s.timer 3).count ≠ 0 ∧ 16 = (u.timer 1).expectedFireTick ∧
      (u.timer 3).count = 0 ∧ 16 = (w.timer 1).expectedFireTick ∧ (w.timer 3).clockDivider ≠ 7 ∧
      16 = ((s.setTimer 4 (s.timer 1)).timer 4).expectedFireTick := by decide +kernel

/-- Two channels with the same taps and shift register and different outputs. -/
theorem witness_LfsrBitsIgnoreTheOutput :
    let c : AudioChannel := ⟨0x001, 0x881, 0, false, 0, false⟩
    let d : AudioChannel := ⟨0x001, 0x881, 0x10, true, 0x70, true⟩
    c.tapMask = d.tapMask ∧ c.shift = d.shift ∧ c ≠ d := by decide

/-- DMA on and row 101, and row 102; the first beat and the last are among the beats. -/
theorem witness_RowDmaFetchesTheRow :
    let s (row : Nat) := { State.reset with display := ⟨1, 0xFFD8, row, 0, 0, 0, [], 0⟩ }
    (s 101).display.dispctl.getLsbD 0 = true ∧ (s 101).display.row < (s 101).params.visibleRows ∧
    ¬(s 102).display.row < (s 102).params.visibleRows ∧ 0 ≤ (s 101).params.dmaBeats ∧
    (s 101).params.dmaBeats ≤ (s 101).params.dmaBeats := by
  refine ⟨by decide, by decide, by decide, Nat.zero_le _, Nat.le_refl _⟩

/-- Some bytes of the line not yet emitted, and none. -/
theorem witness_PaletteWritesAndVblank :
    let s := { State.reset with display := ⟨1, 0, 0, 0, 0, 0, [0x12, 0x34], 1⟩ }
    s.display.emitted < s.display.lineBuf.length ∧
      State.reset.display.lineBuf.length ≤ State.reset.display.emitted := by decide

/-- A queue with two events, one that is empty, and one from which a pop leaves an event. -/
theorem witness_QueuePopsInOrder : let q : List Event := [⟨.timer 2, 50⟩, ⟨.displayDma, 75⟩]
    (∃ e ∈ q, e.kind ≠ .none) ∧ (∀ e ∈ ([] : List Event), e.kind = .none) ∧
      ∃ e ∈ (popEarliest 0 q).2.1, e.kind ≠ .none := by decide +kernel

/-- The sprite device busy; idle in a reset window; idle with none. -/
theorem witness_PulseResetAndDeferral :
    ({ State.reset with suzy := ⟨true, 0⟩ } : State).suzy.busy = true ∧
    State.reset.suzy.busy = false ∧ ({ State.reset with resetLine := true } : State).resetLine = true ∧
    State.reset.resetLine = false := by decide

/-- A buffer with a slot left, one that is full, and a rate that is not 0. -/
theorem witness_AdvanceAudioFillsTheBuffer : 48000 ≠ 0 ∧
    (0 < ([0, 0] : List Int).length ∧ 0 ≤ ([0, 0] : List Int).length) ∧
    State.reset.sampling.buf.length ≤ State.reset.sampling.idx ∧
    State.reset.sampling.idx ≤ State.reset.sampling.buf.length := by decide

/-- An idle serial port, and a RAM address on which two traps are registered. -/
theorem witness_HostInputsAndTraps :
    let x : Trap := ⟨true, true, true, true, [0x0200], 0⟩
    let s := { State.reset with traps := [x, { x with fn := 1 }] }
    s.serial.txBusy = false ∧ route s.mapctl 0x0200 = .ram ∧
      (s.traps.filter fun x => x.onRead && x.addrs.contains 0x0200).length = 2 := by decide

/-- For `StepKeepsInvariant`, `StepsEndOnlyAsTheRulesSay` and `StepOnlyMovesForward`: a machine at a NOP has the
invariant, and its step answers a next state; and one whose run has ended. -/
theorem witness_step : let s := start [0xEA]
    let u := { s with runExit := some .stalled }
    (s.Inv ∧ s.runExit = none ∧ step s = .next (got (step s))) ∧ u.Inv ∧ u.runExit ≠ none := by
  have inv : (start [0xEA]).Inv := by
    refine ⟨⟨rfl, rfl⟩, rfl, fun n => ?_, ⟨rfl, by decide⟩, fun n => ?_, ⟨by decide, by decide⟩, by decide, .inl rfl⟩
    all_goals
      revert n
      decide
  exact ⟨⟨inv, rfl, eq_got (by decide +kernel)⟩, ⟨inv.1, inv.2, inv.3, inv.4, inv.5, inv.6, inv.7, .inl rfl⟩, by simp⟩

/-- For `StepIsLoopSteps`: an event of each kind due, and not yet due; and a busy sprite device. -/
theorem witness_StepIsLoopSteps : let s := State.reset
    (∀ k ∈ [EventKind.timer 11, .audioSample, .displayDma, .resetRelease],
      let due := { s with queue := [⟨k, 0⟩] }
      due.runExit = none ∧ peekEarliestTick due.queue = some 0 ∧ (0 : Tick) ≤ due.now ∧
        (popEarliest due.tieCount due.queue).1.kind = k) ∧
    peekEarliestTick [⟨.timer 11, 1⟩] = some 1 ∧ ¬(1 : Tick) ≤ s.now ∧
    ({ s with suzy := ⟨true, 0⟩ } : State).suzy.busy = true := by decide

end Sys2Proof.Tests
end

section
/-! PROOFS. Power-on, and the step at a boundary before a fetch (10_state R90, 40_dispatch R202, R203). -/

namespace Sys2Proof.Machine

/-! ### Power-on -/

theorem timer_reset (n : Fin 12) : State.reset.timer n = TimerUnit.zero := by
  revert n
  decide

theorem audio_reset (n : Fin 4) : State.reset.audio.get n = AudioChannel.zero := by
  revert n
  decide

/-- Settles O55: the values are those of `State.reset`, each unit's and each channel's by its own lemma. -/
theorem powerOnValues : Obligations.PowerOnValues := by
  have palette : ∀ n : Fin 16, State.reset.green.get n = 0 ∧ State.reset.bluered.get n = 0 := by decide
  have atten : ∀ n : Fin 4, State.reset.atten.get n = 0 := by decide
  unfold Obligations.PowerOnValues
  intro s
  exact ⟨rfl, rfl, rfl, rfl, rfl, ⟨rfl, rfl, rfl, rfl, rfl, rfl⟩, rfl, rfl, rfl, rfl, rfl, rfl, rfl, rfl, rfl, rfl,
    rfl, rfl, fun _ => rfl, fun _ => rfl, timer_reset, fun n => ⟨audio_reset n, atten n⟩, palette, rfl, rfl, rfl, rfl,
    rfl, rfl, rfl, rfl, rfl, rfl⟩

/-- Settles O57: no memory is listed, no event queued, no unit clocked, no tap set and no buffer filled. -/
theorem powerOnHasInvariant : Obligations.PowerOnHasInvariant where
  memory := ⟨rfl, rfl⟩
  queue := rfl
  timer n := by
    rw [timer_reset]
    exact ⟨rfl, rfl, fun _ => rfl⟩
  latch := ⟨rfl, fun active => absurd active (by decide)⟩
  audio n := by
    rw [audio_reset]
    rfl
  display := ⟨Nat.zero_le _, Nat.le_refl _⟩
  samples := Nat.le_refl _
  answered := .inl rfl

/-! ### The fetch -/

/-- Presence and decoding depend on two parameters only. -/
theorem decodeOpcode_switches (p : Params) (op : Byte) : decodeOpcode p op =
    decodeOpcode { Params.default with rockwellBitops := p.rockwellBitops, wdcWaiStp := p.wdcWaiStp } op := rfl

theorem wellFormed_switches (p : Params) (i : Instr) : i.wellFormed p =
    i.wellFormed { Params.default with rockwellBitops := p.rockwellBitops, wdcWaiStp := p.wdcWaiStp } := by
  cases i <;> rfl

/-- Every byte decodes to an instruction the machine has (30_encoding R182, R183). -/
theorem decodeOpcode_wellFormed (p : Params) (op : Byte) : (decodeOpcode p op).wellFormed p = true := by
  have all : ∀ (r w : Bool) (n : Fin 256),
      (decodeOpcode { Params.default with rockwellBitops := r, wdcWaiStp := w } (BitVec.ofFin n)).wellFormed
        { Params.default with rockwellBitops := r, wdcWaiStp := w } = true := by decide +kernel
  rw [wellFormed_switches, decodeOpcode_switches]
  exact all p.rockwellBitops p.wdcWaiStp op.toFin

/-- The decoder reads the instruction from the first byte alone (30_encoding R150). -/
theorem decode_instr {p : Params} {op : Byte} {bytes : List Byte} {d : Decoded}
    (h : decode p (op :: bytes) = .ok d) : d.instr = decodeOpcode p op := by
  unfold decode at h
  dsimp only at h
  split at h
  · cases h
  · cases h
    rfl

/-- The hiccup record the fetch of an instruction's opcode leaves (45_stack_flags_misc R446). -/
theorem trace_answerOpcode (p : Params) (v : Byte) (c : Cpu) :
    (c.answerOpcode p v).trace = c.trace ++ (match decodeOpcode p v with
      | .nopOne _ | .nopImm _ | .nopZp | .nopZpX _ | .nopAbs _ | .nop5C => [⟨c.pc, v⟩]
      | _ => []) := by
  simp only [Cpu.answerOpcode]
  cases decodeOpcode p v
  case nopOne | nopImm | nopZp | nopZpX | nopAbs | nop5C => rfl
  all_goals exact (List.append_nil _).symm

/-- The opcode fetch from plain memory gives the state `fetched` names (40_dispatch R203, 55_system R703). -/
theorem oneCycle_fetch {s : State} {tr : List BusRecord} (h : Ready s tr) (hp : plain s.mapctl s.cpu.pc = true)
    (hu : untrapped s.traps s.opcodeFetch = true) : oneCycle fetchSeq s.awakened = .next s.fetched := by
  have ha : s.awakened.cpu.pendingReq = none := h.answered
  have hn : plainNext fetchSeq s.awakened = s.fetched := by
    change { s.fetched with cpu := { s.fetched.cpu with pendingReq := none } } = s.fetched
    rw [← show s.fetched.cpu.pendingReq = none from ha]
  rw [← hn]
  exact oneCycle_plain ha h.unsampled hp hu

/-- Settles O4: the boundary chooses the fetch, the fetch gives `fetched`, and the step goes on with the
instruction of the byte fetched. -/
theorem stepRunsDecodedInstruction : Obligations.StepRunsDecodedInstruction := by
  intro s d hf hr hp hu hd
  have hi := decode_instr hd
  have hstep : step s = afterFetch s.fetched := by
    rw [step_boundary hr hf.boundary, stepBoundary_answered hr.answered, boundary_fetch hf]
    exact congrArg (Res.bind · afterFetch) (oneCycle_fetch hr hp hu)
  have hcur : s.fetched.currentInstr = some d.instr := by
    rw [hi]
    rfl
  refine ⟨hi ▸ decodeOpcode_wellFormed .., ?_, ?_⟩
  · rw [hi]
    exact trace_answerOpcode ..
  · rw [hstep, afterFetch_answered (show s.fetched.cpu.pendingReq = none from hr.answered), hcur]

end Sys2Proof.Machine
end

section
/-! PROOFS. What the other agents' turns and a boundary leave alone, and that a step only moves forward (10_state
R60, 55_system R705, R714). -/

namespace Sys2Proof.Machine

/-! ### Event dispatch, the sprite device and the boundary -/

/-- `t` is `s` but for what the dispatch of an event may change: time forward, the queue, the samples, the reset
line, and what a device's operation may change. -/
def EventFrame (s t : State) : Prop :=
  s.now ≤ t.now ∧ ∃ u, DeviceFrame u t ∧ u = { s with
    now := t.now, queue := u.queue, tieCount := u.tieCount, sampling := u.sampling, resetLine := u.resetLine }

theorem DeviceFrame.now {s t : State} (h : DeviceFrame s t) : t.now = s.now := by
  obtain ⟨_, _, h⟩ := h
  rw [h]

/-- Popping an event and a device's operation on it are within the frame. -/
theorem DeviceFrame.event {s t : State} {q : List Event} {k : Nat}
    (h : DeviceFrame { s with queue := q, tieCount := k } t) : EventFrame s t :=
  ⟨BitVec.le_of_eq h.now.symm, _, h, by rw [h.now]⟩

theorem commit_frame (y : Yield) : DeviceFrame y.1 (Yield.commit y) := .of_eq rfl

theorem EventFrame.device {s t u : State} (h : EventFrame s t) (h' : DeviceFrame t u) : EventFrame s u := by
  obtain ⟨le, v, device, rest⟩ := h
  exact ⟨h'.now ▸ le, v, device.trans h', h'.now ▸ rest⟩

theorem handleEvent_frame {e : Event} {s : State} {q : List Event} {k : Nat} {y : Yield}
    (h : handleEvent e { s with queue := q, tieCount := k } = .next y) : EventFrame s y.1 := by
  unfold handleEvent at h
  split at h
  case h_1 =>
    cases h
    exact (DeviceFrame.refl _).event
  case h_2 =>
    split at h
    case isTrue =>
      cases h
      exact (fireAction_frame ..).event
    case isFalse => cases h
  case h_3 =>
    cases h
    unfold audioSample
    dsimp only
    split <;> exact ⟨BitVec.le_refl _, _, .refl _, rfl⟩
  case h_4 =>
    cases h
    unfold displayDma
    split
    · exact (DeviceFrame.refl _).event
    · exact ⟨le_advanceTick .., _, .of_eq rfl, rfl⟩
  case h_5 =>
    cases h
    exact ⟨BitVec.le_refl _, _, .refl _, rfl⟩

/-- The dispatch of an event is within the frame of events (55_system R701). -/
theorem dispatchEvent_frame {s t : State} (h : dispatchEvent s = .next t) : EventFrame s t := by
  obtain ⟨y, handled, rest⟩ := Res.bind_eq_next h
  cases rest
  exact (handleEvent_frame handled).device (commit_frame y)

/-- A micro-step of the sprite device moves time forward and changes RAM, the device, the queue, the reset lines
and of the CPU its pending RESET and its run state (55_system R706, 70_reset R801). -/
theorem spriteMicroStep_frame (s : State) : let t := spriteMicroStep s
    s.now ≤ t.now ∧ t = { s with
      now := t.now, ram := t.ram, suzy := t.suzy, queue := t.queue
      resetDeferred := t.resetDeferred, resetLine := t.resetLine
      cpu := { s.cpu with pendReset := t.cpu.pendReset, mode := t.cpu.mode } } := by
  have time := le_advanceTick s.now (1 + (Config.spriteStep s.now s.suzy s.ram).2.2)
  unfold spriteMicroStep spriteDone
  dsimp only
  split
  · exact ⟨time, rfl⟩
  · split
    · split <;> exact ⟨time, rfl⟩
    · split <;> exact ⟨time, rfl⟩

/-- A boundary adds no trace record and makes no request (40_dispatch R202). -/
theorem boundary_frame (p : Params) (irq : Bool) (c : Cpu) :
    (c.boundary p irq).2.trace = c.trace ∧ (c.boundary p irq).2.pendingReq = c.pendingReq := by
  have woken : ∀ d : Cpu, (d.wakeCheck irq).trace = d.trace ∧ (d.wakeCheck irq).pendingReq = d.pendingReq := by
    intro d
    unfold Cpu.wakeCheck
    split <;> exact ⟨rfl, rfl⟩
  have started : ∀ (k : SeqKind) (d : Cpu),
      (d.startInterrupt k).trace = d.trace ∧ (d.startInterrupt k).pendingReq = d.pendingReq := by
    intro k d
    cases k <;> exact ⟨rfl, rfl⟩
  unfold Cpu.boundary
  split
  case h_1 d r evaluated =>
    obtain rfl := congrArg Prod.fst evaluated
    exact ⟨rfl, rfl⟩
  case h_2 d evaluated =>
    obtain rfl := congrArg Prod.fst evaluated
    dsimp only
    split
    · split
      · rw [(started _ _).1, (started _ _).2]
        exact woken _
      · exact woken _
    · exact woken _

/-! ### Moving forward -/

/-- Time does not decrease, the outputs only grow, and what only the host sets is left alone. -/
structure Forward (s t : State) : Prop where
  now : s.now ≤ t.now
  video : s.video <+: t.video
  serialOut : s.serialOut <+: t.serialOut
  busLog : s.busLog <+: t.busLog
  trace : s.cpu.trace <+: t.cpu.trace
  rom : t.rom = s.rom
  params : t.params = s.params
  traps : t.traps = s.traps
  nmiIn : t.nmiIn = s.nmiIn
  ioIn : t.ioIn = s.ioIn

theorem Forward.refl (s : State) : Forward s s :=
  ⟨BitVec.le_refl _, List.prefix_refl _, List.prefix_refl _, List.prefix_refl _, List.prefix_refl _, rfl, rfl, rfl, rfl,
    rfl⟩

theorem Forward.trans {s t u : State} (h : Forward s t) (h' : Forward t u) : Forward s u :=
  ⟨BitVec.le_trans h.now h'.now, h.video.trans h'.video, h.serialOut.trans h'.serialOut, h.busLog.trans h'.busLog,
    h.trace.trans h'.trace, h'.rom.trans h.rom, h'.params.trans h.params, h'.traps.trans h.traps,
    h'.nmiIn.trans h.nmiIn, h'.ioIn.trans h.ioIn⟩

/-- A change of the CPU that adds trace records only. -/
theorem Forward.cpu {s t : State} (h : Forward s t) {c : Cpu} (grown : t.cpu.trace <+: c.trace) :
    Forward s { t with cpu := c } := { h with trace := h.trace.trans grown }

theorem Forward.exit {s t : State} (h : Forward s t) (x : Option RunExit) : Forward s { t with runExit := x } :=
  { h with }

theorem Forward.settle {s t : State} (h : Forward s t) : Forward s t.settle := by
  unfold State.settle
  split
  · exact h.exit _
  · exact h

theorem DeviceFrame.forward {s t : State} (h : DeviceFrame s t) : Forward s t := by
  obtain ⟨vs, ss, h⟩ := h
  rw [h]
  exact { Forward.refl s with video := List.prefix_append .., serialOut := List.prefix_append .. }

theorem AccessFrame.forward {s t : State} (h : AccessFrame s t) : Forward s t := by
  obtain ⟨r, device, h⟩ := h
  refine Forward.trans ?_ device.forward
  rw [h]
  exact { Forward.refl s with }

theorem EventFrame.forward {s t : State} (h : EventFrame s t) : Forward s t := by
  obtain ⟨now, u, device, h⟩ := h
  refine Forward.trans ?_ device.forward
  rw [h]
  exact { Forward.refl s with now := now }

/-- The resolution of a request adds its record and no time is turned back (55_system R703 step 5). -/
theorem resolve_forward (req : BusReq) (s : State) : Forward s (resolve req s).2 := by
  have h : Forward s (Yield.commit (access req s).2) := (access_frame req s).forward.trans (commit_frame _).forward
  rw [resolve_eq]
  exact { h with now := le_completion .., busLog := h.busLog.trans (List.prefix_append ..) }

/-- A bus cycle whose answer adds trace records only. -/
theorem oneCycle_forward {q : Seq} {s t : State} (grows : ∀ p c v, c.trace <+: ((q p c).done v c).trace)
    (h : oneCycle q s = .next t) : Forward s t := by
  have asked : Forward s (s.asking q) := (Forward.refl s).cpu (List.prefix_refl _)
  obtain ⟨-, h⟩ := oneCycle_inv h
  split at h
  · rw [h]
    exact asked.exit _
  · obtain ⟨u, v, c, resolved, answered, h⟩ := h
    have forward := asked.trans (resolve_forward (q s.params s.cpu).req (s.asking q))
    rw [resolved] at forward
    rw [h]
    refine (forward.cpu ?_).settle
    have same : u.cpu.trace = c.trace := by rw [answered]
    exact same ▸ grows u.params c v

/-- The answer to the opcode fetch adds a hiccup record or none (45_stack_flags_misc R446). -/
theorem fetchSeq_grows (p : Params) (c : Cpu) (v : Byte) : c.trace <+: ((fetchSeq p c).done v c).trace := by
  change c.trace <+: (c.answerOpcode p v).trace
  unfold Cpu.answerOpcode
  dsimp only
  split
  · exact List.prefix_append ..
  · exact List.prefix_refl _

theorem idle_forward (s : State) : Forward s (idle s) := by
  unfold idle
  split
  · refine { Forward.refl s with now := ?_ }
    dsimp only
    split
    · assumption
    · exact BitVec.le_refl _
  · exact (Forward.refl s).exit _

theorem spriteMicroStep_forward (s : State) : Forward s (spriteMicroStep s) := by
  obtain ⟨now, h⟩ := spriteMicroStep_frame s
  rw [h]
  exact { Forward.refl s with now := now }

/-- Every part of a step moves forward. -/
theorem forward_stepRel : StepRel Forward where
  refl := Forward.refl
  trans := Forward.trans
  cycle keeps h := oneCycle_forward (fun p c v => (keeps p c v).2.1 ▸ List.prefix_refl _) h
  fetch h := oneCycle_forward fetchSeq_grows h
  finish s := (Forward.refl s).cpu (List.prefix_refl _)
  boundary s := (Forward.refl s).cpu ((boundary_frame ..).1 ▸ List.prefix_refl _)
  exit s x _ := (Forward.refl s).exit x
  idle s _ := idle_forward s
  event h := (dispatchEvent_frame h).forward
  sprite := spriteMicroStep_forward

/-- A sum within the 64 bits is taken as it is (10_state R60). -/
theorem toNat_advanceTick {t : Tick} {d : Nat} (h : t.toNat + d < 2 ^ 64) : (advanceTick t d).toNat = t.toNat + d := by
  rw [advanceTick, if_pos h, BitVec.toNat_add, BitVec.toNat_ofNat, Nat.add_mod_mod, Nat.mod_eq_of_lt h]

/-- Settles O60: moving forward is a relation that every part of a step keeps. -/
theorem stepOnlyMovesForward : Obligations.StepOnlyMovesForward := by
  refine ⟨fun t d => ⟨le_advanceTick t d, toNat_advanceTick⟩, fun s t h => ?_⟩
  obtain ⟨now, video, serialOut, busLog, trace, rom, params, traps, nmiIn, ioIn⟩ := forward_stepRel.step h
  exact ⟨now, video, serialOut, busLog, trace, rom, params, traps, nmiIn, ioIn⟩

end Sys2Proof.Machine
end

section
/-! PROOFS. The invariant of the machine: what every device operation, every bus cycle and every step keep of it
(10_state R61 to R76). -/

namespace Sys2Proof.Machine

/-! ### The invariant in the middle of an operation -/

/-- The invariant of a state but for its CPU, while an operation runs: the events `es` are yielded and not yet
pushed, and the units `out` are firing, so that their plan is not settled yet (50_event_queue R510, 51_timers
R532). -/
structure State.InvDuring (out : List (Fin 12)) (es : List Event) (s : State) : Prop where
  memory : s.memoryInv
  queue : queueWf s.queue = true
  yielded : ∀ e ∈ es, e.proper = true
  plan : ∀ n, n ∉ out → (s.timer n).planned s.params = true ∧
    (s.timer n).scheduled s.params (es ++ s.queue) n = true
  silent : ∀ n : Fin 12, 8 ≤ n.val → (s.timer n).interruptEnabled = false
  latch : s.latchInv
  audio : s.audioInv
  display : s.displayInv
  samples : s.sampling.idx ≤ s.sampling.buf.length

/-- A request outstanding means the exit `REFUSED(a)`. -/
def State.answeredInv (s : State) : Prop := s.cpu.pendingReq = none ∨ ∃ a, s.runExit = some (.refused a)

/-- Between operations nothing is yielded and no unit is firing. -/
theorem State.inv_iff {s : State} : s.Inv ↔ s.InvDuring [] [] ∧ s.answeredInv := by
  constructor
  · intro h
    exact ⟨⟨h.memory, h.queue, nofun, fun n _ => ⟨(h.timer n).1, (h.timer n).2.1⟩, fun n => (h.timer n).2.2, h.latch,
      h.audio, h.display, h.samples⟩, h.answered⟩
  · rintro ⟨h, answered⟩
    exact ⟨h.memory, h.queue, fun n => ⟨(h.plan n nofun).1, (h.plan n nofun).2, h.silent n⟩, h.latch, h.audio,
      h.display, h.samples, answered⟩

/-! ### Plans and the queue -/

theorem TimerUnit.scheduled_iff {p : Params} {q : List Event} {n : Fin 12} {u : TimerUnit} :
    u.scheduled p q n = true ↔
      (u.selfClocked p = true → u.expectedFireTick ≠ 0 → ⟨.timer n.val, u.expectedFireTick⟩ ∈ q) := by
  simp only [TimerUnit.scheduled, Bool.or_eq_true, Bool.not_eq_true', beq_iff_eq, List.contains_iff_mem, ne_eq]
  rw [← Bool.not_eq_true]
  tauto

/-- A unit stays scheduled where no fire of its own is taken out. -/
theorem TimerUnit.scheduled_mono {p : Params} {q r : List Event} {n : Fin 12} {u : TimerUnit}
    (h : u.scheduled p q n = true) (keep : ∀ t, (⟨.timer n.val, t⟩ : Event) ∈ q → (⟨.timer n.val, t⟩ : Event) ∈ r) :
    u.scheduled p r n = true :=
  TimerUnit.scheduled_iff.2 fun clocked planned => keep _ (TimerUnit.scheduled_iff.1 h clocked planned)

/-- A unit settled at a tick has a plan that agrees with its count (51_timers R523). -/
theorem TimerUnit.planned_settle (p : Params) (t : Tick) (u : TimerUnit) : (u.settle p t).planned p = true := by
  unfold TimerUnit.settle
  split
  case isTrue clocked =>
    have clocked' : (u.resched t).selfClocked p = true := clocked
    rw [TimerUnit.planned, if_pos clocked']
    exact beq_self_eq_true _
  case isFalse idle =>
    have idle' : ¬TimerUnit.selfClocked p { u with expectedFireTick := 0 } = true := idle
    rw [TimerUnit.planned, if_neg idle']
    rfl

theorem TimerUnit.interruptEnabled_settle (p : Params) (t : Tick) (u : TimerUnit) :
    (u.settle p t).interruptEnabled = u.interruptEnabled := by
  unfold TimerUnit.settle
  split <;> rfl

/-- The event a settled unit yields schedules it. -/
theorem TimerUnit.scheduled_event (p : Params) (n : Fin 12) (u : TimerUnit) (es q : List Event) :
    u.scheduled p (es ++ u.event p n ++ q) n = true :=
  TimerUnit.scheduled_iff.2 fun clocked _ => by simp [TimerUnit.event, clocked]

theorem TimerUnit.proper_event (p : Params) (n : Fin 12) (u : TimerUnit) : ∀ e ∈ u.event p n, e.proper = true := by
  intro e he
  unfold TimerUnit.event at he
  split at he
  · rw [List.mem_singleton.1 he]
    simp [Event.proper]
  · cases he

theorem proper_displayDma (t : Tick) : ∀ e ∈ [(⟨.displayDma, t⟩ : Event)], e.proper = true :=
  List.forall_mem_singleton.2 rfl

/-! ### Taps and memory -/

/-- The three bits that no channel's mask has. -/
theorem absentTaps_iff {m : BitVec 12} :
    m &&& 0x340 = 0 ↔ m.getLsbD 6 = false ∧ m.getLsbD 8 = false ∧ m.getLsbD 9 = false := by
  constructor
  · intro h
    have bit : ∀ i, (m &&& 0x340).getLsbD i = false := fun i => by rw [h]; exact BitVec.getLsbD_zero
    exact ⟨by simpa using bit 6, by simpa using bit 8, by simpa using bit 9⟩
  · rintro ⟨h6, h8, h9⟩
    rw [BitVec.getLsbD_eq_getElem (by decide)] at h6 h8 h9
    refine BitVec.eq_of_getElem_eq fun i hi => ?_
    interval_cases i <;> simp [*]

/-- A FEEDBACK write writes no absent tap (52_audio R573). -/
theorem AudioChannel.absentTaps_setFeedback (v : Byte) (ch : AudioChannel) :
    (ch.setFeedback v).tapMask &&& 0x340 = 0 := by
  have bit : ∀ i, (ch.setFeedback v).tapMask.getLsbD i = BitVec.getLsbD
      (v.extractLsb' 6 2 ++ 0#2 ++ ch.tapMask.extractLsb' 7 1 ++ 0#1 ++ v.extractLsb' 0 6) i := fun _ => rfl
  simp only [absentTaps_iff, bit, BitVec.getLsbD_append]
  simp

/-- A CONTROL write writes no absent tap (52_audio R578). -/
theorem AudioChannel.absentTaps_setControl (v : Byte) {ch : AudioChannel} (h : ch.tapMask &&& 0x340 = 0) :
    (ch.setControl v).tapMask &&& 0x340 = 0 := by
  have bit : ∀ i, (ch.setControl v).tapMask.getLsbD i = BitVec.getLsbD
      (ch.tapMask.extractLsb' 8 4 ++ v.extractLsb' 7 1 ++ ch.tapMask.extractLsb' 0 7) i := fun _ => rfl
  simp only [absentTaps_iff, bit, BitVec.getLsbD_append]
  simpa using absentTaps_iff.1 h

theorem writeBytes_wf (ws : List (Addr × Byte)) {ram : List Host.Cell} (h : Memory.wf 65536 ram = true) :
    Memory.wf 65536 (writeBytes ws ram) = true := by
  unfold writeBytes
  induction ws generalizing ram with
  | nil => exact h
  | cons w ws ih => exact ih (ramWrite_wf w.1 w.2 h)

/-! ### Events and queues -/

namespace State.InvDuring

variable {s : State} {out : List (Fin 12)} {es : List Event} {n : Fin 12}

/-- One more unit need not be settled. -/
theorem exempt (h : s.InvDuring out es) (n : Fin 12) : s.InvDuring (n :: out) es :=
  { h with plan := fun m hm => h.plan m fun mem => hm (List.mem_cons_of_mem _ mem) }

/-- More events may be yielded. -/
theorem more (h : s.InvDuring out es) {fs : List Event} (proper : ∀ e ∈ fs, e.proper = true) :
    s.InvDuring out (es ++ fs) :=
  { h with
    yielded := fun e he => (List.mem_append.1 he).elim (h.yielded e) (proper e)
    plan := fun n hn => ⟨(h.plan n hn).1, TimerUnit.scheduled_mono (h.plan n hn).2 fun t ht => by
      simp only [List.mem_append] at ht ⊢
      tauto⟩ }

/-- The System pushes the yielded events (50_event_queue R510). -/
theorem commit {y : Yield} (h : y.1.InvDuring [] y.2) : (Yield.commit y).InvDuring [] [] :=
  { h with
    queue := queueWf_pushAll h.yielded h.queue
    yielded := nofun
    plan := fun n hn => ⟨(h.plan n hn).1, TimerUnit.scheduled_mono (h.plan n hn).2 fun t ht => by
      rw [List.nil_append, Yield.commit_queue, mem_pushAll]
      exact List.mem_append.1 ht⟩ }

/-- The queue may be replaced by one that has every fire a settled unit plans. -/
theorem requeue (h : s.InvDuring out es) {q : List Event} {k : Nat} {out' : List (Fin 12)}
    (wf : queueWf q = true) (sub : ∀ n, n ∉ out' → n ∉ out ∧ ((s.timer n).expectedFireTick ≠ 0 →
      (⟨.timer n.val, (s.timer n).expectedFireTick⟩ : Event) ∈ s.queue →
      (⟨.timer n.val, (s.timer n).expectedFireTick⟩ : Event) ∈ q)) :
    State.InvDuring out' es { s with queue := q, tieCount := k } :=
  { h with
    queue := wf
    plan := fun n hn => by
      obtain ⟨hout, keep⟩ := sub n hn
      obtain ⟨planned, scheduled⟩ := h.plan n hout
      refine ⟨planned, TimerUnit.scheduled_iff.2 fun clocked tick => List.mem_append.2 ?_⟩
      exact (List.mem_append.1 (TimerUnit.scheduled_iff.1 scheduled clocked tick)).imp_right (keep tick) }

/-- Cancelling events that are no timer's unschedules no unit. -/
theorem cancelDma (h : s.InvDuring out es) : s.cancelDma.InvDuring out es :=
  h.requeue (k := s.tieCount) (queueWf_cancel h.queue) fun _ hn =>
    ⟨hn, fun _ mem => mem_cancel.2 ⟨mem, EventKind.noConfusion⟩⟩

/-! ### One unit -/

/-- A unit may be replaced by one whose plan agrees with its count and is scheduled. -/
theorem setTimer (h : s.InvDuring (n :: out) es) {u : TimerUnit}
    (plan : n ∉ out → u.planned s.params = true ∧ u.scheduled s.params (es ++ s.queue) n = true)
    (silent : 8 ≤ n.val → u.interruptEnabled = false) : (s.setTimer n u).InvDuring out es :=
  { h with
    plan := fun m hm => by
      rw [timer_setTimer]
      split
      case isTrue same => exact same ▸ plan (same ▸ hm)
      case isFalse other => exact h.plan m (by simp [other, hm])
    silent := fun m hm => by
      rw [timer_setTimer]
      split
      case isTrue same => exact silent (same ▸ hm)
      case isFalse => exact h.silent m hm }

/-- Settling a unit settles its plan (51_timers R523, R532 step 6). -/
theorem settleTimer (h : s.InvDuring (n :: out) es) (t : Tick) {u : TimerUnit}
    (silent : 8 ≤ n.val → u.interruptEnabled = false) :
    (settleTimer n t u s).1.InvDuring out (es ++ (Machine.settleTimer n t u s).2) :=
  (h.more (TimerUnit.proper_event _ _ _)).setTimer
    (fun _ => ⟨TimerUnit.planned_settle .., TimerUnit.scheduled_event ..⟩)
    fun high => (TimerUnit.interruptEnabled_settle ..).trans (silent high)

/-- An update of a unit settles its plan (51_timers R525). -/
theorem updateTimer (h : s.InvDuring out es) (n : Fin 12) (t : Tick) {w : TimerUnit → TimerUnit}
    (silent : ∀ u, 8 ≤ n.val → u.interruptEnabled = false → (w u).interruptEnabled = false) :
    (updateTimer n t w s).1.InvDuring out (es ++ (Machine.updateTimer n t w s).2) :=
  (h.exempt n).settleTimer t fun high => silent _ high (h.silent n high)

/-- A unit changed in no part its plan or its clocking depends on keeps its plan. -/
theorem setTimer_sameplan (h : s.InvDuring out es) {u : TimerUnit}
    (clocked : u.selfClocked s.params = (s.timer n).selfClocked s.params)
    (tick : u.expectedFireTick = (s.timer n).expectedFireTick)
    (fire : (s.timer n).selfClocked s.params = true →
      u.fireTick u.baseTick = (s.timer n).fireTick (s.timer n).baseTick)
    (silent : 8 ≤ n.val → u.interruptEnabled = false) : (s.setTimer n u).InvDuring out es := by
  refine (h.exempt n).setTimer (fun hn => ?_) silent
  obtain ⟨planned, scheduled⟩ := h.plan n hn
  refine ⟨?_, TimerUnit.scheduled_iff.2 (by rw [clocked, tick]; exact TimerUnit.scheduled_iff.1 scheduled)⟩
  unfold TimerUnit.planned at planned ⊢
  rw [clocked, tick]
  split at planned
  case isTrue on => rwa [if_pos on, fire on]
  case isFalse off => rwa [if_neg off]

theorem setBackup (h : s.InvDuring out es) (n : Fin 12) (v : Byte) : (setBackup n v s).InvDuring out es :=
  h.setTimer_sameplan rfl rfl (fun _ => rfl) (h.silent n)

theorem setControlB (h : s.InvDuring out es) (n : Fin 12) (t : Tick) (v : Byte) :
    (setControlB n t v s).1.InvDuring out (es ++ (Machine.setControlB n t v s).2) := by
  unfold Machine.setControlB
  dsimp only
  split
  case isTrue same => exact (List.append_nil es).symm ▸ h.setTimer_sameplan same rfl (fun _ => rfl) (h.silent n)
  case isFalse => exact h.updateTimer n t fun _ _ => id

/-! ### Display -/

theorem emitUpTo (h : s.InvDuring out es) {k : Nat} (hk : k ≤ s.display.lineBuf.length) :
    (emitUpTo k s).InvDuring out es := by
  unfold Machine.emitUpTo
  split
  · exact { h with display := ⟨h.display.1, hk⟩ }
  · exact h

theorem vblank (h : s.InvDuring out es) : (vblank s).InvDuring out es :=
  { (h.emitUpTo (Nat.le_refl _)).cancelDma with display := ⟨Nat.zero_le _, Nat.le_refl _⟩ }

theorem hblankStart (h : s.InvDuring out es) (t : Tick) : (hblankStart t s).InvDuring out es :=
  have h := (h.emitUpTo (Nat.le_refl _)).cancelDma
  { h with display := ⟨h.display.1, Nat.zero_le _⟩ }

theorem hblank (h : s.InvDuring out es) (t : Tick) : (hblank t s).1.InvDuring out (es ++ (Machine.hblank t s).2) := by
  have h := h.hblankStart t
  have row : nextRow (Machine.hblankStart t s).display.row ≤ 65535 := Nat.min_le_right ..
  unfold Machine.hblank
  dsimp only
  split
  · exact { h.more (proper_displayDma _) with display := ⟨row, h.display.2⟩ }
  · exact { h.more (fs := []) nofun with display := ⟨row, h.display.2⟩ }

theorem displayDma (h : s.InvDuring out es) (t : Tick) :
    (displayDma t s).1.InvDuring out (es ++ (Machine.displayDma t s).2) := by
  have grown : ∀ bytes : List Byte, s.display.emitted ≤ (s.display.lineBuf ++ bytes).length := fun bytes =>
    h.display.2.trans (List.length_append ▸ Nat.le_add_right ..)
  unfold Machine.displayDma
  split
  · exact h.more nofun
  · unfold pushData
    dsimp only
    split
    · exact { h.more (proper_displayDma _) with display := ⟨h.display.1, grown _⟩ }
    · exact { h.more (fs := []) nofun with display := ⟨h.display.1, grown _⟩ }

theorem updatePalette (h : s.InvDuring out es) (t : Tick) (reg : Nat) (v : Byte) :
    (updatePalette t reg v s).InvDuring out es :=
  { h.emitUpTo (Nat.min_le_left ..) with }

/-! ### Audio -/

/-- A channel may be changed where its absent taps stay 0 (52_audio R573). -/
theorem updateAudio (h : s.InvDuring out es) (n : Fin 4) {f : AudioChannel → AudioChannel}
    (taps : (f (s.audio.get n)).tapMask &&& 0x340 = 0) : (s.updateAudio n f).InvDuring out es :=
  { h with
    audio := fun m => by
      rw [State.updateAudio_audio]
      by_cases same : m = n
      · rw [same, get_set_same]
        exact taps
      · rw [get_set_ne _ _ same]
        exact h.audio m }

theorem audioTrigger (h : s.InvDuring out es) (n : Fin 4) : (audioTrigger n s).InvDuring out es :=
  h.updateAudio n (h.audio n)

theorem audioSample (h : s.InvDuring out es) :
    (audioSample s).1.InvDuring out (es ++ (Machine.audioSample s).2) := by
  unfold Machine.audioSample
  dsimp only
  split
  case isTrue room =>
    have samples : s.sampling.idx + 1 ≤ (s.sampling.buf.set s.sampling.idx s.mixSample).length :=
      List.length_set.symm ▸ room
    refine { h.more ?_ with samples := samples }
    split
    · exact List.forall_mem_singleton.2 rfl
    · exact nofun
  case isFalse => exact h.more nofun

/-! ### Firing -/

/-- The latch may gain bits (54_controller_chip R654). -/
theorem orLatch (h : s.InvDuring out es) (v : Byte) :
    State.InvDuring out es { s with irqLatch := s.irqLatch ||| v } :=
  { h with
    latch := ⟨h.latch.1, fun active => by rw [BitVec.getLsbD_or, h.latch.2 active, Bool.true_or]⟩ }

theorem fireMark (h : s.InvDuring (n :: out) es) : (fireMark n s).InvDuring (n :: out) es := by
  have marked : (s.setTimer n { s.timer n with done := true }).InvDuring (n :: out) es :=
    (h.exempt n).setTimer (fun settled => absurd List.mem_cons_self settled) (h.silent n)
  unfold Machine.fireMark
  dsimp only
  split
  · exact marked.orLatch _
  · exact marked

theorem fireOwn (h : s.InvDuring out es) (n : Fin 12) (t : Tick) :
    (fireOwn n t s).1.InvDuring out (es ++ (Machine.fireOwn n t s).2) := by
  unfold Machine.fireOwn
  split
  case h_1 => exact h.hblank t
  case h_2 => exact h.vblank.more nofun
  case h_7 => exact h.more nofun
  all_goals exact (h.audioTrigger _).more nofun

theorem fireReload (h : s.InvDuring (n :: out) es) (t : Tick) :
    (fireReload n t s).1.InvDuring out (es ++ (Machine.fireReload n t s).2) :=
  h.settleTimer t (h.silent n)

/-- A borrow that a linked unit counts changes no plan: the unit has none (51_timers R533). -/
theorem borrowed (h : s.InvDuring out es) {firing : List (Fin 12)} {m : Fin 12}
    (accepted : borrowAccepted firing m s = true) :
    (s.setTimer m { s.timer m with count := (s.timer m).count - 1 }).InvDuring out es := by
  refine h.setTimer_sameplan rfl rfl (fun clocked => ?_) (h.silent m)
  simp only [borrowAccepted, TimerUnit.selfClocked, Bool.and_eq_true, Bool.not_eq_true'] at accepted clocked
  obtain ⟨⟨⟨linking, -⟩, -⟩, -⟩ := accepted
  obtain ⟨⟨-, unlinked⟩, -⟩ := clocked
  exact absurd linking (by simp [unlinked])

/-- A fire settles its unit's plan, if the fires its borrow leads to keep the invariant (51_timers R532). -/
theorem fire_succ {fuel : Nat} {firing : List (Fin 12)} (h : s.InvDuring (n :: out) es) (t : Tick)
    (cascade : ∀ {m s es}, State.InvDuring (n :: out) es s →
      (fire fuel (n :: firing) m t s).1.InvDuring (n :: out) (es ++ (fire fuel (n :: firing) m t s).2)) :
    (fire (fuel + 1) firing n t s).1.InvDuring out (es ++ (fire (fuel + 1) firing n t s).2) := by
  have own := h.fireMark.fireOwn n t
  unfold Machine.fire
  dsimp only
  rw [← List.append_assoc, ← List.append_assoc]
  refine fireReload ?_ t
  split
  case h_1 => exact own.more nofun
  case h_2 =>
    split
    case isFalse => exact own.more nofun
    case isTrue accepted =>
      split
      · exact cascade own
      · exact (own.borrowed accepted).more nofun

theorem fire (h : s.InvDuring out es) (fuel : Nat) (firing : List (Fin 12)) (n : Fin 12) (t : Tick) :
    (fire fuel firing n t s).1.InvDuring out (es ++ (Machine.fire fuel firing n t s).2) := by
  induction fuel generalizing s out es firing n with
  | zero => exact h.more nofun
  | succ fuel ih => exact (h.exempt n).fire_succ t fun h => ih h ..

/-! ### Event dispatch -/

/-- The state after a pop that took the event `x` out. -/
theorem erase (h : s.InvDuring [] []) {x : Event} (k : Nat)
    (unplanned : ∀ n, n ∉ out → (s.timer n).expectedFireTick ≠ 0 →
      x ≠ ⟨.timer n.val, (s.timer n).expectedFireTick⟩) :
    State.InvDuring out [] { s with queue := s.queue.erase x, tieCount := k } :=
  h.requeue (queueWf_erase h.queue) fun n hn =>
    ⟨nofun, fun tick mem => (List.mem_erase_of_ne (unplanned n hn tick).symm).2 mem⟩

/-- The fire a pop took out is the unit's plan, and the fire settles the next one; or the plan is another, which is
still in the queue (51_timers R531). -/
theorem popTimer (h : s.InvDuring [] []) (n : Fin 12) (t : Tick) (k : Nat) :
    let u := { s with queue := s.queue.erase ⟨.timer n.val, t⟩, tieCount := k }
    (fireAction n t u).1.InvDuring [] (fireAction n t u).2 := by
  intro u
  unfold fireAction
  split
  case isTrue stale =>
    refine h.erase k fun m _ planned same => ?_
    simp only [Event.mk.injEq, EventKind.timer.injEq] at same
    obtain ⟨unit, tick⟩ := same
    obtain rfl : n = m := Fin.ext unit
    exact stale.elim (fun other => other tick) planned
  case isFalse live =>
    have firing : u.InvDuring [n] [] := h.erase k fun m hm _ same => by
      simp only [Event.mk.injEq, EventKind.timer.injEq] at same
      exact hm (List.mem_singleton.2 (Fin.ext same.1.symm))
    exact firing.fire_succ t fun h => h.fire ..

/-- A pop of another event, or of none, leaves every plan in the queue. -/
theorem popOther (h : s.InvDuring [] []) {x : Event} (k : Nat) (other : ∀ n, x.kind ≠ .timer n) :
    State.InvDuring [] [] { s with queue := s.queue.erase x, tieCount := k } :=
  h.erase k fun n _ _ same => other n.val (congrArg Event.kind same)

theorem handle {x : Event} {k : Nat} {y : Yield} (h : s.InvDuring [] [])
    (handled : handleEvent x { s with queue := s.queue.erase x, tieCount := k } = .next y) :
    y.1.InvDuring [] y.2 := by
  obtain ⟨kind, tick⟩ := x
  unfold handleEvent at handled
  split at handled
  case h_2 n same =>
    dsimp only at same
    subst same
    split at handled
    case isTrue lt =>
      cases handled
      exact h.popTimer ⟨n, lt⟩ tick k
    case isFalse => cases handled
  all_goals
    rename_i same
    dsimp only at same
    subst same
    cases handled
  case h_1 => exact h.popOther k nofun
  case h_3 => exact (h.popOther (x := ⟨.audioSample, tick⟩) k nofun).audioSample
  case h_4 => exact (h.popOther (x := ⟨.displayDma, tick⟩) k nofun).displayDma tick
  case h_5 => exact { h.popOther (x := ⟨.resetRelease, tick⟩) k nofun with }

theorem dispatchEvent {t : State} (h : s.InvDuring [] []) (dispatched : dispatchEvent s = .next t) :
    t.InvDuring [] [] := by
  unfold Machine.dispatchEvent at dispatched
  obtain ⟨y, handled, rest⟩ := Res.bind_eq_next dispatched
  cases rest
  refine commit ?_
  rcases popEarliest_cases s.tieCount s.queue with ⟨-, none⟩ | ⟨x, k, -, some⟩
  · rw [none] at handled
    cases handled
    exact h
  · rw [some] at handled
    exact h.handle handled

/-! ### The registers -/

/-- The glue may change where an active serial condition is given its latch bit (54_controller_chip R654). -/
theorem serialLatch (h : s.InvDuring out es) {r : Serial} (v : Byte) (idle : r.txBusy = false) :
    (applySerialIrq { s with serial := r, irqLatch := v }).InvDuring out es := by
  unfold applySerialIrq
  split
  case isTrue => exact { h with latch := ⟨idle, fun _ => by simp⟩ }
  case isFalse inactive => exact { h with latch := ⟨idle, fun active => absurd active inactive⟩ }

/-- A read of SERDAT takes the byte, and the condition can only end (54_controller_chip R661). -/
theorem chipReadEffect (h : s.InvDuring out es) (a : Addr) : (chipReadEffect a s).InvDuring out es := by
  unfold Machine.chipReadEffect
  split
  · refine { h with latch := ⟨h.latch.1, fun active => h.latch.2 ?_⟩ }
    simp only [serdatTaken, Serial.irqActive, Serial.txRdy, Bool.and_false, Bool.or_false] at active ⊢
    rw [active, Bool.true_or]
  · exact h

/-- A register write keeps the invariant (54_controller_chip R630). -/
theorem chipWrite (h : s.InvDuring out es) (t : Tick) (a : Addr) (v : Byte) :
    (chipWrite t a v s).1.InvDuring out (es ++ (Machine.chipWrite t a v s).2) := by
  unfold Machine.chipWrite
  cases chipReg a <;> dsimp only
  case timCtlA n => exact h.updateTimer _ t fun _ high => absurd high (Nat.not_le.2 n.isLt)
  case timCnt | audCounter => exact h.updateTimer _ t fun _ _ => id
  case timCtlB => exact h.setControlB _ t v
  case audControl n =>
    exact (h.updateAudio n (AudioChannel.absentTaps_setControl v (h.audio n))).updateTimer _ t fun _ _ => id
  case audOther n => exact (h.updateAudio n (h.audio n)).setControlB _ t v
  all_goals refine more (fs := []) ?_ nofun
  case timBkup | audBackup => exact h.setBackup _ v
  case audFeedback n => exact h.updateAudio n (AudioChannel.absentTaps_setFeedback v _)
  case audVol n | audOutput n | audShift n => exact h.updateAudio n (h.audio n)
  case intrst | serctl => exact h.serialLatch _ h.latch.1
  case intset => exact h.orLatch v
  case dispctl | dispadrL | dispadrH => exact { h with display := h.display }
  case green n =>
    have h : State.InvDuring out es { s with green := s.green.set n v } := { h with }
    exact h.updatePalette t n.val v
  case bluered n =>
    have h : State.InvDuring out es { s with bluered := s.bluered.set n v } := { h with }
    exact h.updatePalette t (16 + n.val) v
  case refused | unused => exact h
  all_goals exact { h with }

/-! ### Bus cycles -/

theorem trapBreak (h : s.InvDuring out es) (b : Bool) : (s.trapBreak b).InvDuring out es := { h with }

theorem writeRam (h : s.InvDuring out es) (a : Addr) (v : Byte) : (s.writeRam a v).InvDuring out es :=
  { h with memory := ⟨ramWrite_wf a v h.memory.1, h.memory.2⟩ }

theorem busWrite (h : s.InvDuring out es) (target : Target) (t : Tick) (a : Addr) (v : Byte) :
    (busWrite target t a v s).1.InvDuring out (es ++ (Machine.busWrite target t a v s).2) := by
  unfold Machine.busWrite
  cases target <;> dsimp only
  case ram => exact (h.writeRam a v).more nofun
  case rom =>
    split
    · exact h.more nofun
    · exact (h.writeRam a v).more nofun
  case chip => exact h.chipWrite t a v
  all_goals exact { h.more (fs := []) nofun with }

theorem busReadEffect (h : s.InvDuring out es) (target : Target) (a : Addr) :
    (busReadEffect target a s).InvDuring out es := by
  unfold Machine.busReadEffect
  split
  · exact h.chipReadEffect a
  · exact h

theorem access (h : s.InvDuring out es) (req : BusReq) :
    (access req s).2.1.InvDuring out (es ++ (Machine.access req s).2.2) := by
  cases req
  case write => exact (h.trapBreak _).busWrite ..
  all_goals exact ((h.busReadEffect ..).trapBreak _).more nofun

/-- The resolution of a request keeps the invariant (55_system R703). -/
theorem resolve (h : s.InvDuring [] []) (req : BusReq) : (resolve req s).2.InvDuring [] [] :=
  { commit (y := (Machine.access req s).2) (h.access req) with }

theorem withCpu (h : s.InvDuring out es) (c : Cpu) : State.InvDuring out es { s with cpu := c } := { h with }

theorem withExit (h : s.InvDuring out es) (x : Option RunExit) : State.InvDuring out es { s with runExit := x } :=
  { h with }

theorem settle (h : s.InvDuring out es) : s.settle.InvDuring out es := by
  unfold State.settle
  split
  · exact h.withExit _
  · exact h

theorem idle (h : s.InvDuring out es) : (idle s).InvDuring out es := by
  unfold Machine.idle
  split
  · exact { h with }
  · exact h.withExit _

/-! ### The sprite device -/

theorem assertReset (h : s.InvDuring [] []) : (assertReset s).InvDuring [] [] :=
  { commit (y := (s, [⟨.resetRelease, s.now + BitVec.ofNat 64 Config.resetTicks⟩]))
      (h.more (List.forall_mem_singleton.2 rfl)) with }

theorem spriteDone (h : s.InvDuring [] []) : (spriteDone s).InvDuring [] [] := by
  have released : State.InvDuring [] [] { s with resetDeferred := false } := { h with }
  unfold Machine.spriteDone
  extract_lets u
  have applied : u.InvDuring [] [] := by
    unfold u
    split
    · exact released.assertReset
    · exact h
  split
  · exact applied.withCpu _
  · exact applied

theorem spriteMicroStep (h : s.InvDuring [] []) : (spriteMicroStep s).InvDuring [] [] := by
  have stepped : ∀ u n, State.InvDuring [] []
      { s with suzy := u, ram := writeBytes (Config.spriteStep s.now s.suzy s.ram).2.1 s.ram, now := n } := fun _ _ =>
    { h with memory := ⟨writeBytes_wf _ h.memory.1, h.memory.2⟩ }
  unfold Machine.spriteMicroStep
  dsimp only
  split
  · exact stepped ..
  · exact (stepped ..).spriteDone

end State.InvDuring

/-! ### Steps -/

/-- The invariant of a state whose CPU has no request outstanding. -/
theorem State.InvDuring.inv_of_answered {s : State} (h : s.InvDuring [] []) (answered : s.cpu.pendingReq = none) :
    s.Inv := State.inv_iff.2 ⟨h, .inl answered⟩

theorem State.Inv.during {s : State} (h : s.Inv) : s.InvDuring [] [] := (State.inv_iff.1 h).1

/-- While the run goes on no request is outstanding (55_system R703 step 1). -/
theorem State.Inv.no_request {s : State} (h : s.Inv) (running : s.runExit = none) : s.cpu.pendingReq = none :=
  h.answered.resolve_right fun ⟨_, refused⟩ => nomatch running.symm.trans refused

/-- The invariant of a state with the CPU's request and the exit of one that has it. -/
theorem State.Inv.of_during {s t : State} (h : s.Inv) (during : t.InvDuring [] [])
    (request : t.cpu.pendingReq = s.cpu.pendingReq) (exit : t.runExit = s.runExit) : t.Inv :=
  State.inv_iff.2 ⟨during, by
    unfold State.answeredInv
    rw [request, exit]
    exact h.answered⟩

theorem EventFrame.request {s t : State} (h : EventFrame s t) :
    t.cpu.pendingReq = s.cpu.pendingReq ∧ t.runExit = s.runExit := by
  obtain ⟨-, u, ⟨_, _, device⟩, rest⟩ := h
  rw [device, rest]
  exact ⟨rfl, rfl⟩

theorem settle_cpu (s : State) : s.settle.cpu = s.cpu := by
  unfold State.settle
  split <;> rfl

theorem idle_cpu (s : State) : (idle s).cpu = s.cpu := by
  unfold idle
  split <;> rfl

/-- A bus cycle keeps the invariant: its request is answered, or ends the run at a refused register. -/
theorem oneCycle_keeps_inv {q : Seq} {s t : State} (h : s.Inv) (cycle : oneCycle q s = .next t) : t.Inv := by
  have asked : (s.asking q).InvDuring [] [] := h.during.withCpu _
  obtain ⟨-, cycle⟩ := oneCycle_inv cycle
  split at cycle
  · rw [cycle]
    exact State.inv_iff.2 ⟨asked.withExit _, .inr ⟨_, rfl⟩⟩
  · obtain ⟨u, v, c, resolved, -, cycle⟩ := cycle
    have during := asked.resolve (q s.params s.cpu).req
    rw [resolved] at during
    rw [cycle]
    exact (during.withCpu _).settle.inv_of_answered (congrArg Cpu.pendingReq (settle_cpu _))

/-- Every part of a step keeps the invariant. -/
theorem inv_stepRel : StepRel fun s t => s.Inv → t.Inv where
  refl _ := id
  trans h h' := h' ∘ h
  cycle _ cycle h := oneCycle_keeps_inv h cycle
  fetch cycle h := oneCycle_keeps_inv h cycle
  finish _ h := h.of_during (h.during.withCpu _) rfl rfl
  boundary _ h := h.of_during (h.during.withCpu _) (boundary_frame ..).2 rfl
  exit _ x running h := (h.during.withExit x).inv_of_answered (h.no_request running)
  idle s running h := h.during.idle.inv_of_answered (by rw [idle_cpu, h.no_request running])
  event dispatched h :=
    have frame := (dispatchEvent_frame dispatched).request
    h.of_during (h.during.dispatchEvent dispatched) frame.1 frame.2
  sprite s h := by
    obtain ⟨-, frame⟩ := spriteMicroStep_frame s
    exact h.of_during h.during.spriteMicroStep (by rw [frame]) (by rw [frame])

/-- Settles O56: the invariant is one that every part of a step keeps. -/
theorem stepKeepsInvariant : Obligations.StepKeepsInvariant := fun _ _ h step => inv_stepRel.step step h

end Sys2Proof.Machine
end

section
/-! PROOFS. The routing of every address, and the access of a bus cycle with no trap on it (20_memory R101 to R108,
55_system R703). -/

namespace Sys2Proof.Machine

/-! ### Routing -/

theorem toNat_hiByte (a : Addr) : (hiByte a).toNat = a.toNat / 256 := by
  rw [hiByte, BitVec.extractLsb'_toNat, Nat.shiftRight_eq_div_pow, Nat.mod_eq_of_lt (by omega)]

/-- The page of an address, by number. -/
theorem hiByte_eq_iff (a : Addr) (page : Byte) : hiByte a = page ↔ a.toNat / 256 = page.toNat := by
  rw [← BitVec.toNat_inj, toNat_hiByte]

/-- The page types by the first address of each range (20_memory R102). -/
theorem pageType_hiByte (mapctl : Byte) (a : Addr) : pageType mapctl (hiByte a) =
    if 0xFE00 ≤ a.toNat then (if mapctl.getLsbD 2 then .ram else .rom)
    else if 0xFD00 ≤ a.toNat then (if mapctl.getLsbD 1 then .ram else .chip)
    else if 0xFC00 ≤ a.toNat then (if mapctl.getLsbD 0 then .ram else .sprite)
    else .ram := by
  simp only [pageType, hiByte_eq_iff, BitVec.reduceToNat]
  by_cases rom : 0xFE00 ≤ a.toNat
  · rw [if_neg (by omega), if_neg (by omega), if_pos (by omega), if_pos rom]
  by_cases chip : 0xFD00 ≤ a.toNat
  · rw [if_neg (by omega), if_pos (by omega), if_neg rom, if_pos chip]
  by_cases sprite : 0xFC00 ≤ a.toNat
  · rw [if_pos (by omega), if_neg rom, if_neg chip, if_pos sprite]
  · rw [if_neg (by omega), if_neg (by omega), if_neg (by omega), if_neg rom, if_neg chip, if_neg sprite]

/-- Settles O38: MAPCTL, 0xFFF8 and the vectors are told apart first, and the pages are those of `pageType_hiByte`. -/
theorem routingTable : Obligations.RoutingTable := by
  intro mapctl a
  have mapctlAddr : a = 0xFFF9 ↔ a.toNat = 0xFFF9 := BitVec.toNat_inj.symm
  have ramAddr : a = 0xFFF8 ↔ a.toNat = 0xFFF8 := BitVec.toNat_inj.symm
  have vectors : (0xFFFA : Addr) ≤ a ↔ 0xFFFA ≤ a.toNat := BitVec.le_def
  simp only [route, mapctlAddr, ramAddr, vectors, pageType_hiByte]

/-- What is routed to the boot ROM lies in its 512 bytes (20_memory R104). -/
theorem romOffset_of_route {mapctl : Byte} {a : Addr} (h : route mapctl a = .rom) :
    romOffset a = a.toNat - 0xFE00 := by
  have lower : 0xFE00 ≤ a.toNat := by
    by_contra below
    rw [routingTable mapctl a] at h
    simp only [if_neg below, if_neg (show ¬0xFFFA ≤ a.toNat by omega), if_neg (show a.toNat ≠ 0xFFF9 by omega),
      if_neg (show a.toNat ≠ 0xFFF8 by omega)] at h
    split_ifs at h
  unfold romOffset
  omega

/-! ### An access with no trap on it -/

/-- With no trap on it, a read gives the target's value and has the read's effect, and no other (55_system R703). -/
theorem resolve_untrapped_read {s : State} {req : BusReq} {target : Target}
    (noTrap : ∀ w, untrapped s.traps ⟨req.kind, req.addr, w⟩ = true) (read : req.kind ≠ .write)
    (routed : route s.mapctl req.addr = target) :
    ∃ t, resolve req s = (busValue target s.now req.addr s, t) ∧
      t = { busReadEffect target req.addr s with now := t.now, prevBus := t.prevBus, busLog := t.busLog } := by
  have passed (v : Byte) := applyTraps_untrapped req.kind s.now req.addr s.traps v v (noTrap v)
  have accessed : access req s = (busValue target s.now req.addr s, busReadEffect target req.addr s, []) := by
    cases req
    case write => exact absurd rfl read
    all_goals
      unfold access
      dsimp only
      rw [passed, State.trapBreak_false, routed]
  exact ⟨_, by rw [resolve_eq, accessed], rfl⟩

/-- With no trap on it, a write is the target's, and the events it yields are pushed (55_system R703). -/
theorem resolve_untrapped_write {s : State} {a : Addr} {target : Target} (v : Byte)
    (noTrap : ∀ w, untrapped s.traps ⟨.write, a, w⟩ = true) (routed : route s.mapctl a = target) :
    let y := busWrite target s.now a v s
    ∃ t, resolve (.write a v) s = (v, t) ∧
      t = { y.1 with queue := pushAll y.2 y.1.queue, now := t.now, prevBus := t.prevBus, busLog := t.busLog } := by
  have accessed : access (.write a v) s = (v, busWrite target s.now a v s) := by
    unfold access
    dsimp only [BusReq.addr]
    rw [applyTraps_untrapped .write s.now a s.traps v v (noTrap v), State.trapBreak_false, routed]
  exact ⟨_, by rw [resolve_eq, accessed], rfl⟩

/-- A write to RAM changes the byte at its address and no other (20_memory R106). -/
theorem stores_of_writeRam {s t : State} {a : Addr} {v : Byte}
    (h : t = { s.writeRam a v with now := t.now, prevBus := t.prevBus, busLog := t.busLog }) :
    t = { s with ram := t.ram, now := t.now, prevBus := t.prevBus, busLog := t.busLog } ∧
      ramRead t.ram a = v ∧ ∀ b, b ≠ a → ramRead t.ram b = ramRead s.ram b := by
  have ram : t.ram = ramWrite s.ram a v := congrArg State.ram h
  rw [ram]
  exact ⟨h, ramRead_ramWrite_same .., fun _ other => ramRead_ramWrite_ne _ v other⟩

/-- Settles O39: `resolve_untrapped_write` and `resolve_untrapped_read` at each of the five targets; a write that
reaches RAM, directly or as the boot ROM's policy, stores its own byte only. -/
theorem plainAccesses : Obligations.PlainAccesses := by
  intro s req a noTrap
  cases req with
  | write _ v =>
    have wrote (target : Target) := resolve_untrapped_write (target := target) v noTrap
    refine ⟨fun ram => ?_, fun rom => ?_, wrote .mapctl, wrote .chip, wrote .sprite⟩
    · obtain ⟨t, resolved, frame⟩ := wrote .ram ram
      exact ⟨t, resolved, stores_of_writeRam frame⟩
    · obtain ⟨t, resolved, frame⟩ := wrote .rom rom
      cases policy : s.params.romWritePolicy <;> simp only [busWrite, policy] at frame
      case discard => exact ⟨t, resolved, frame⟩
      case writeRam => exact ⟨t, resolved, stores_of_writeRam frame⟩
  | fetchOpcode | fetchOperand | read | discard =>
    have gave (target : Target) := resolve_untrapped_read (target := target) noTrap nofun
    refine ⟨gave .ram, fun rom => ?_, gave .mapctl, gave .chip, gave .sprite⟩
    rw [← romOffset_of_route rom]
    exact gave .rom rom

end Sys2Proof.Machine
end

section
/-! PROOFS. The opcode map and the encodings agree, both ways, and a step is refused only after the run has ended
(30_encoding R150, R180 to R183, 60_exceptions R740, R760). -/

namespace Sys2Proof.Laws.RoundTrip

/-! ### Every instruction -/

theorem of_mem_moded {f : Mode → Instr} (mem : f ∈ moded) (m : Mode) : Statement (f m) := by
  obtain ⟨k, rfl⟩ := List.get_of_mem mem
  exact of_moded k m

theorem of_mem_fixed {i : Instr} (mem : i ∈ fixed) : Statement i := by
  obtain ⟨k, rfl⟩ := List.get_of_mem mem
  exact of_fixed k

/-- An instruction has a mode, or an opcode of its own as its field, or no field (30_encoding R181). -/
theorem all (i : Instr) : Statement i := by
  cases i
  case nopOne op => exact nopOne op
  case nopImm op => exact nopImm op
  case nopZpX op => exact nopZpX op
  case nopAbs op => exact nopAbs op
  case lda m | ldx m | ldy m | sta m | stx m | sty m | stz m | adc m | sbc m | and m | ora m | eor m | cmp m |
      cpx m | cpy m | bit m | asl m | lsr m | rol m | ror m | inc m | dec m | tsb m | trb m | jmp m =>
    exact of_mem_moded (by simp [moded]) m
  all_goals exact of_mem_fixed (by decide)

end Sys2Proof.Laws.RoundTrip

namespace Sys2Proof

/-! ### The decoder and the encoder -/

theorem Mode.operandCount_le_two (m : Mode) : m.operandCount ≤ 2 := by
  cases m <;> decide

/-- No instruction is longer than three bytes (30_encoding R151). -/
theorem Instr.operandCount_le_two (i : Instr) : i.operandCount ≤ 2 := by
  cases i <;> simp [operandCount, Mode.operandCount_le_two]

/-- As many bytes as the opcode's instruction has operands are its operands, and the others are left (30_encoding
R150). -/
theorem decode_of_length {p : Params} {op : Byte} {operands : List Byte}
    (length : operands.length = (decodeOpcode p op).operandCount) (rest : List Byte) :
    decode p (op :: (operands ++ rest)) = .ok ⟨decodeOpcode p op, operands, rest⟩ := by
  have enough : ¬(operands ++ rest).length < operands.length := by simp
  simp only [decode, ← length, if_neg enough, List.take_left, List.drop_left]

end Sys2Proof

namespace Sys2Proof.Machine

/-! ### Both ways -/

/-- Settles O1: the opcode gives the instruction back (`RoundTrip.all`), and with it the number of operand bytes. -/
theorem decodeOfEncode : Obligations.DecodeOfEncode := by
  intro p i b1 b2 rest wellFormed
  have instr : decodeOpcode p (opcodeOf i) = i := Laws.RoundTrip.all i p wellFormed
  have length : ([b1, b2].take i.operandCount).length = (decodeOpcode p (opcodeOf i)).operandCount := by
    rw [instr, List.length_take]
    exact Nat.min_eq_left i.operandCount_le_two
  have decoded := decode_of_length length rest
  rwa [instr] at decoded

/-- The encodings give back every byte of the opcode map (30_encoding R180, R183). -/
theorem opcodeOf_decodeOpcode (p : Params) (op : Byte) : opcodeOf (decodeOpcode p op) = op := by
  have all : ∀ (r w : Bool) (n : Fin 256),
      opcodeOf (decodeOpcode { Params.default with rockwellBitops := r, wdcWaiStp := w } (BitVec.ofFin n)) =
        BitVec.ofFin n := by decide +kernel
  rw [decodeOpcode_switches]
  exact all p.rockwellBitops p.wdcWaiStp op.toFin

/-- Settles O2: every byte decodes to an instruction the machine has, which its rule encodes as that byte. -/
theorem everyByteIsAnOpcode : Obligations.EveryByteIsAnOpcode := fun p op =>
  ⟨decodeOpcode_wellFormed p op, opcodeOf_decodeOpcode p op⟩

/-! ### A bus cycle and a sequence answer -/

theorem DeviceFrame.pendingReq {s t : State} (h : DeviceFrame s t) : t.cpu.pendingReq = s.cpu.pendingReq := by
  obtain ⟨_, _, h⟩ := h
  rw [h]

theorem AccessFrame.pendingReq {s t : State} (h : AccessFrame s t) : t.cpu.pendingReq = s.cpu.pendingReq := by
  obtain ⟨r, device, h⟩ := h
  rw [device.pendingReq, h]

/-- A request is outstanding until the CPU is given its answer (40_dispatch R201). -/
theorem resolve_pendingReq (req : BusReq) (s : State) : (resolve req s).2.cpu.pendingReq = s.cpu.pendingReq :=
  (access_frame req s).pendingReq

/-- With no request outstanding a bus cycle is no host error (55_system R712). -/
theorem oneCycle_answers (q : Seq) {s : State} (answered : s.cpu.pendingReq = none) :
    ∃ t, oneCycle q s = .next t := by
  unfold oneCycle Cpu.advance
  simp only [answered, Res.bind_next]
  split
  · exact ⟨_, rfl⟩
  · simp only [Cpu.respond, resolve_pendingReq, Res.bind_next]
    exact ⟨_, rfl⟩

theorem State.running_of_cpuTurn {s : State} (turn : s.cpuTurn = true) : s.runExit = none := by
  simp only [State.cpuTurn, Bool.and_eq_true, Option.isNone_iff_eq_none] at turn
  exact turn.1.1

/-- The loop gives the CPU its turn only while the run goes on, and then no request is outstanding. -/
theorem burst_answers (q : Seq) (n : Nat) {s : State} (h : s.Inv) : ∃ t, burst q n s = .next t := by
  induction n generalizing s with
  | zero => exact ⟨_, rfl⟩
  | succ n ih =>
    unfold burst
    split
    · exact ⟨_, rfl⟩
    split
    case isTrue turn =>
      obtain ⟨u, cycle⟩ := oneCycle_answers q (h.no_request (State.running_of_cpuTurn turn))
      rw [cycle, Res.bind_next]
      exact ih (oneCycle_keeps_inv h cycle)
    case isFalse => exact ⟨_, rfl⟩

theorem runSeq_answers (q : Seq) {s : State} (h : s.Inv) (answered : s.cpu.pendingReq = none) :
    ∃ t, runSeq q s = .next t := by
  obtain ⟨u, cycle⟩ := oneCycle_answers q answered
  rw [runSeq, cycle, Res.bind_next]
  exact burst_answers q 8 (oneCycle_keeps_inv h cycle)

theorem exec_answers {i : Instr} (wf : i.wf = true) {s : State} (h : s.Inv) (answered : s.cpu.pendingReq = none) :
    ∃ t, exec i s = .next t := by
  rw [exec_eq_runSeq wf]
  split
  · exact ⟨_, rfl⟩
  · exact runSeq_answers _ h answered

/-! ### A step answers -/

/-- The instruction fetched is well formed, for every byte decodes to one that is (30_encoding R182). -/
theorem State.wf_of_currentInstr {s : State} {i : Instr} (current : s.currentInstr = some i) : i.wf = true := by
  unfold State.currentInstr at current
  split at current
  · cases current
    exact (Bool.and_eq_true_iff.1 (decodeOpcode_wellFormed _ _)).1
  · cases current

/-- An event of a kind that exists is handled: its timer is one of the twelve (55_system R701). -/
theorem handleEvent_answers {e : Event} (timer : ∀ n, e.kind = .timer n → n < 12) (s : State) :
    ∃ y, handleEvent e s = .next y := by
  unfold handleEvent
  cases kind : e.kind with
  | timer n => exact ⟨_, dif_pos (timer n kind)⟩
  | none | audioSample | displayDma | resetRelease => exact ⟨_, rfl⟩

theorem Event.timer_lt_of_proper {e : Event} (proper : e.proper = true) (n : Nat) (timer : e.kind = .timer n) :
    n < 12 := by
  simpa [Event.proper, timer] using proper

/-- What a pop answers has a timer index below 12, the sentinel having none (50_event_queue R504). -/
theorem popEarliest_timer_lt (ties : Nat) {q : List Event} (wf : queueWf q = true) (n : Nat)
    (timer : (popEarliest ties q).1.kind = .timer n) : n < 12 := by
  rcases popEarliest_cases ties q with ⟨-, empty⟩ | ⟨x, _, earliest, popped⟩
  · rw [empty] at timer
    cases timer
  · rw [popped] at timer
    exact Event.timer_lt_of_proper ((queueWf_iff.1 wf).1 x (mem_earliestEvents.1 earliest).1) n timer

/-- No event of a queue in form is a fault (55_system R701). -/
theorem dispatchEvent_answers {s : State} (wf : queueWf s.queue = true) : ∃ t, dispatchEvent s = .next t := by
  unfold dispatchEvent
  dsimp only
  obtain ⟨y, handled⟩ := handleEvent_answers (popEarliest_timer_lt s.tieCount wf) _
  rw [handled]
  exact ⟨_, rfl⟩

theorem afterFetch_answers {s : State} (h : s.Inv) : ∃ t, afterFetch s = .next t := by
  unfold afterFetch
  split
  case isTrue => exact ⟨_, rfl⟩
  case isFalse request =>
    have answered : s.cpu.pendingReq = none := by simpa using request
    split
    case h_1 current =>
      split
      · exact exec_answers (State.wf_of_currentInstr current) h answered
      · exact ⟨_, rfl⟩
    case h_2 => exact ⟨_, rfl⟩

/-- At a boundary the break ends the run, and each of the other choices answers (40_dispatch R202). -/
theorem stepBoundary_answers {s : State} (h : s.Inv) (answered : s.cpu.pendingReq = none) :
    ∃ t, stepBoundary s = .next t := by
  have inv := inv_stepRel.boundary s h
  have request := (boundary_frame s.params s.irqLine s.cpu).2.trans answered
  rw [stepBoundary_answered answered]
  generalize s.cpu.boundary s.params s.irqLine = choice at inv request ⊢
  obtain ⟨kind, c⟩ := choice
  cases kind with
  | brk | asleep => exact ⟨_, rfl⟩
  | interrupt k => exact runSeq_answers _ inv request
  | fetch =>
    obtain ⟨u, fetched⟩ := oneCycle_answers fetchSeq (s := { s with cpu := c }) request
    dsimp only
    rw [fetched]
    exact afterFetch_answers (oneCycle_keeps_inv inv fetched)

theorem stepResume_answers {s : State} (h : s.Inv) (answered : s.cpu.pendingReq = none) :
    ∃ t, stepResume s = .next t := by
  unfold stepResume
  split
  case h_1 current => exact exec_answers (State.wf_of_currentInstr current) h answered
  case h_2 => exact runSeq_answers _ h answered

/-- While the run goes on every agent's turn answers (55_system R700). -/
theorem step_answers {s : State} (h : s.Inv) (running : s.runExit = none) : ∃ t, step s = .next t := by
  have answered := h.no_request running
  unfold step
  rw [if_neg (by simp [running])]
  split
  · obtain ⟨u, dispatched⟩ := dispatchEvent_answers h.queue
    rw [dispatched]
    exact ⟨_, rfl⟩
  split
  · exact ⟨_, rfl⟩
  split
  · exact stepBoundary_answers h answered
  · exact stepResume_answers h answered

/-- Settles O59: a running step answers (`step_answers`), and one after the run's exit is refused first of all. -/
theorem stepsEndOnlyAsTheRulesSay : Obligations.StepsEndOnlyAsTheRulesSay := fun _ h =>
  ⟨step_answers h, fun ended => if_pos (Option.isSome_iff_ne_none.2 ended)⟩

end Sys2Proof.Machine
end

section
/-! PROOFS. The step inside a suspended instruction (40_dispatch R201, 55_system R700, R702). -/

namespace Sys2Proof.Machine

/-- The opcode register names the instruction that was suspended (40_dispatch R201). -/
theorem State.currentInstr_of_opcode {s : State} {op : Byte} (fetched : s.cpu.opcode = .instr op) :
    s.currentInstr = some (decodeOpcode s.params op) := by
  unfold State.currentInstr
  rw [fetched]

/-- A suspended instruction goes on as its own `exec` (40_dispatch R201). -/
theorem stepResume_of_currentInstr {s : State} {i : Instr} (current : s.currentInstr = some i) :
    stepResume s = exec i s := by
  unfold stepResume
  rw [current]

/-- Settles O5: no other agent's turn comes first, so the step resumes, and what it resumes is the instruction of
the opcode register. -/
theorem stepResumesInstruction : Obligations.StepResumesInstruction := fun s op ready suspended fetched =>
  calc step s
    _ = stepResume s := step_resume ready suspended
    _ = exec (decodeOpcode s.params op) s := stepResume_of_currentInstr (State.currentInstr_of_opcode fetched)

end Sys2Proof.Machine
end

section
/-! PROOFS. Loads, stores and transfers run to their end (41_load_store R300 to R312), and the sample words of the
opcode map (30_encoding R180). -/

namespace Sys2Proof

/-- The word an encoding rule writes is that of its instruction (30_encoding R180, R183). -/
theorem decodeOpcode_of_opcodeOf {p : Params} {i : Instr} {op : Byte} (present : i.wellFormed p = true)
    (encoded : opcodeOf i = op) : decodeOpcode p op = i :=
  encoded ▸ Laws.RoundTrip.all i p present

/-- A load's operand is immediate or in memory (41_load_store R300 to R302). -/
theorem Mode.imm_or_isMem_of_load {m : Mode} (load : m.isAlu = true ∨ m.isLdx = true ∨ m.isLdy = true) :
    m = .imm ∨ m.isMem = true := by
  cases m
  case imm => exact .inl rfl
  case acc | absInd | absIndX => exact absurd load (by decide)
  all_goals exact .inr rfl

/-- A store's target is in memory (41_load_store R303 to R306). -/
theorem Mode.isMem_of_store {m : Mode}
    (store : m.isSta = true ∨ m.isStx = true ∨ m.isSty = true ∨ m.isStz = true) : m.isMem = true := by
  cases m
  case imm | acc | absInd | absIndX => exact absurd store (by decide)
  all_goals rfl

end Sys2Proof

namespace Sys2Proof.Machine

/-! ### Sample words -/

/-- Settles O3: each word is the one the encoding of its instruction writes. -/
theorem sampleWordsDecode : Obligations.SampleWordsDecode := fun _ =>
  ⟨decodeOpcode_of_opcodeOf rfl rfl, decodeOpcode_of_opcodeOf rfl rfl, decodeOpcode_of_opcodeOf rfl rfl,
    decodeOpcode_of_opcodeOf rfl rfl, decodeOpcode_of_opcodeOf rfl rfl,
    fun bitops => ⟨decodeOpcode_of_opcodeOf (i := .rmb3) bitops rfl,
      decodeOpcode_of_opcodeOf (i := .bbs7) bitops rfl⟩,
    fun waiStp => decodeOpcode_of_opcodeOf (i := .stp) waiStp rfl⟩

/-! ### An instruction does what its sequence does -/

/-- Every instruction but the one-cycle no-op takes bus cycles of its own after the fetch (40_dispatch R203, R242). -/
theorem exec_of_seqOf {i : Instr} {q : Seq} (wf : i.wf = true) (cycles : i.oneCycle = false) (seq : seqOf i = q)
    (s : State) : exec i s = runSeq q s := by
  rw [exec_eq_runSeq wf, cycles, seq]
  rfl

/-- A read-class instruction: `f` on the operand and the registers, PC past the operand bytes (40_dispatch R211 to
R229). -/
theorem completes_of_readSeq {i : Instr} {m : Mode} {op : ReadOp} {f : Byte → Regs → Regs} {s : State}
    (run : exec i s = runSeq (readSeq m op) s) (operation : ∀ v c, op.exec v c = c.withRegs (f v c.regs))
    (mode : m = .imm ∨ m.isMem = true) (start : s.cpu.cycle = 1)
    (ready : Ready s (s.readTrace m (op.extra s.params s.cpu))) :
    Completes i s (s.readTrace m (op.extra s.params s.cpu))
      (f (s.operand m) { s.cpu.regs with pc := s.pcAfter m }) := by
  rw [Completes, run]
  exact readSeq_completes operation mode start ready

/-- A write-class instruction that stores `f` of the registers, which does not look at PC (40_dispatch R213 to
R228). -/
theorem completesStoring_of_writeSeq {i : Instr} {m : Mode} {value : Cpu → Byte} {f : Regs → Byte} {s : State}
    (run : exec i s = runSeq (writeSeq m value) s) (stored : ∀ c, value c = f c.regs)
    (pcFree : ∀ r pc, f { r with pc := pc } = f r) (mode : m.isMem = true) (start : s.cpu.cycle = 1)
    (ready : Ready s (s.writeTrace m (f s.cpu.regs))) :
    CompletesStoring i s (s.writeTrace m (f s.cpu.regs)) { s.cpu.regs with pc := s.pcAfter m } (s.effAddr m)
      (f s.cpu.regs) := by
  rw [CompletesStoring, run]
  refine writeSeq_completes (fun d _ regs => ?_) mode start ready
  rw [stored, regs, pcFree]

/-- An implied instruction: `f` on the registers, after one dummy cycle (40_dispatch R210). -/
theorem completes_of_impliedSeq {i : Instr} {op : Cpu → Cpu} {f : Regs → Regs} {s : State}
    (run : exec i s = runSeq (impliedSeq op) s) (operation : ∀ c, op c = c.withRegs (f c.regs))
    (ready : Ready s [s.dummy s.cpu.pc]) : Completes i s [s.dummy s.cpu.pc] (f s.cpu.regs) := by
  have within : s.cpu.Within (op s.cpu) := by
    rw [operation]
    rfl
  obtain ⟨t, runs, completed, regs, ram⟩ := impliedSeq_completes ready within
  rw [operation, Cpu.withRegs_regs] at regs
  exact ⟨t, run.trans runs, completed, regs, ram⟩

/-! ### Loads, stores, transfers -/

/-- Settles O6: each load is a read-class instruction, whose operation sets its register, N and Z. -/
theorem loadsComplete : Obligations.LoadsComplete := fun _ s start ready =>
  ⟨fun wf => completes_of_readSeq (f := fun v r => { r with a := v, flags := r.flags.setNZ v })
      (exec_of_seqOf wf rfl rfl s) (fun _ _ => rfl) (Mode.imm_or_isMem_of_load (.inl wf)) start ready,
    fun wf => completes_of_readSeq (f := fun v r => { r with x := v, flags := r.flags.setNZ v })
      (exec_of_seqOf wf rfl rfl s) (fun _ _ => rfl) (Mode.imm_or_isMem_of_load (.inr (.inl wf))) start ready,
    fun wf => completes_of_readSeq (f := fun v r => { r with y := v, flags := r.flags.setNZ v })
      (exec_of_seqOf wf rfl rfl s) (fun _ _ => rfl) (Mode.imm_or_isMem_of_load (.inr (.inr wf))) start ready⟩

/-- Settles O7: each store is a write-class instruction, and what it stores does not depend on PC. -/
theorem storesComplete : Obligations.StoresComplete := fun _ s start =>
  ⟨fun wf => completesStoring_of_writeSeq (f := Regs.a) (exec_of_seqOf wf rfl rfl s) (fun _ => rfl)
      (fun _ _ => rfl) (Mode.isMem_of_store (.inl wf)) start,
    fun wf => completesStoring_of_writeSeq (f := Regs.x) (exec_of_seqOf wf rfl rfl s) (fun _ => rfl)
      (fun _ _ => rfl) (Mode.isMem_of_store (.inr (.inl wf))) start,
    fun wf => completesStoring_of_writeSeq (f := Regs.y) (exec_of_seqOf wf rfl rfl s) (fun _ => rfl)
      (fun _ _ => rfl) (Mode.isMem_of_store (.inr (.inr (.inl wf)))) start,
    fun wf => completesStoring_of_writeSeq (f := fun _ => 0) (exec_of_seqOf wf rfl rfl s) (fun _ => rfl)
      (fun _ _ => rfl) (Mode.isMem_of_store (.inr (.inr (.inr wf)))) start⟩

/-- Settles O8: each transfer is an implied instruction, and TXS is the one whose operation has no flags. -/
theorem transfersComplete : Obligations.TransfersComplete := fun s _ ready =>
  ⟨completes_of_impliedSeq (f := fun r => { r with x := r.a, flags := r.flags.setNZ r.a })
      (exec_of_seqOf rfl rfl rfl s) (fun _ => rfl) ready,
    completes_of_impliedSeq (f := fun r => { r with y := r.a, flags := r.flags.setNZ r.a })
      (exec_of_seqOf rfl rfl rfl s) (fun _ => rfl) ready,
    completes_of_impliedSeq (f := fun r => { r with a := r.x, flags := r.flags.setNZ r.x })
      (exec_of_seqOf rfl rfl rfl s) (fun _ => rfl) ready,
    completes_of_impliedSeq (f := fun r => { r with a := r.y, flags := r.flags.setNZ r.y })
      (exec_of_seqOf rfl rfl rfl s) (fun _ => rfl) ready,
    completes_of_impliedSeq (f := fun r => { r with x := r.sp, flags := r.flags.setNZ r.sp })
      (exec_of_seqOf rfl rfl rfl s) (fun _ => rfl) ready,
    completes_of_impliedSeq (f := fun r => { r with sp := r.x })
      (exec_of_seqOf rfl rfl rfl s) (fun _ => rfl) ready⟩

end Sys2Proof.Machine
end

section
/-! PROOFS. Arithmetic, logic, compare and bit test: what the sums and differences are as numbers, and that the
instructions run to their end (42_alu R340 to R350). -/

namespace Sys2Proof

/-- CPX and CPY have no mode that CMP lacks (42_alu R347 to R349). -/
theorem Mode.isAlu_of_isCpx {m : Mode} (cpx : m.isCpx = true) : m.isAlu = true := by
  cases m
  case imm | zp | abs => rfl
  all_goals exact absurd cpx (by decide)

end Sys2Proof

namespace Sys2Proof.Machine

/-! ### Bytes as numbers -/

/-- SBC's `w = v ^ 0xFF` is `255 - v` (42_alu R342). -/
theorem toNat_xor_0xFF (v : Byte) : ((v ^^^ 0xFF).toNat : Int) = 255 - v.toNat := by
  have complement : v ^^^ 0xFF = ~~~v := BitVec.xor_allOnes
  have bound := v.isLt
  rw [complement, BitVec.toNat_not]
  omega

/-- As a signed byte, SBC's `w` is `-1 - v` (42_alu R342). -/
theorem toInt_xor_0xFF (v : Byte) : (v ^^^ 0xFF).toInt = -1 - v.toInt := by
  have complement := toNat_xor_0xFF v
  rw [BitVec.toInt_eq_toNat_cond, BitVec.toInt_eq_toNat_cond]
  split_ifs <;> omega

/-- The byte whose two digits are `h` and `l`. -/
def ofDigits (h l : Nat) : Byte := BitVec.ofNat 8 (16 * h + l)

theorem toNat_ofDigits {h l : Nat} (hh : h < 16) (hl : l < 16) : (ofDigits h l).toNat = 16 * h + l := by
  rw [ofDigits, BitVec.toNat_ofNat]
  omega

/-- The mask `0x0F` leaves the low digit. -/
theorem toNat_ofDigits_and_0x0F {h l : Nat} (hh : h < 16) (hl : l < 16) :
    (ofDigits h l &&& 0x0F).toNat = l := by
  have masked : (16 * h + l) &&& (2 ^ 4 - 1) = (16 * h + l) % 2 ^ 4 := Nat.and_two_pow_sub_one_eq_mod _ 4
  rw [BitVec.toNat_and, toNat_ofDigits hh hl]
  exact masked.trans (by omega)

/-- The mask `0xF0` leaves the high digit, with the low digit 0. -/
theorem ofDigits_and_0xF0 {h l : Nat} (hh : h < 16) (hl : l < 16) : ofDigits h l &&& 0xF0 = ofDigits h 0 := by
  have all : ∀ h l : Fin 16, ofDigits h l &&& 0xF0 = ofDigits h 0 := by decide
  exact all ⟨h, hh⟩ ⟨l, hl⟩

/-- The value of a high digit in a signed byte. -/
theorem toInt_ofDigits_zero {h : Nat} (hh : h < 16) :
    (ofDigits h 0).toInt = if h < 8 then 16 * (h : Int) else 16 * h - 256 := by
  rw [BitVec.toInt_eq_toNat_cond, toNat_ofDigits hh (by decide)]
  split_ifs <;> omega

/-! ### Binary sums and differences -/

@[simp] theorem Flags.setNZ_c (f : Flags) (r : Byte) : (f.setNZ r).c = f.c := rfl

theorem Flags.setNZ_z_iff (f : Flags) (r : Byte) : (f.setNZ r).z = true ↔ r = 0 := decide_eq_true_iff

/-- V's bit formula: the sum has the sign of neither operand just when the signed sum does not fit (42_alu R340). -/
theorem overflow_msb_iff {a v r : Byte} {c carry : Nat} (hc : c ≤ 1)
    (sum : r.toNat + 256 * carry = a.toNat + v.toNat + c) :
    ((a ^^^ r) &&& (v ^^^ r)).msb = true ↔ r.toInt ≠ a.toInt + v.toInt + c := by
  have ha := a.isLt
  have hv := v.isLt
  have hr := r.isLt
  rw [BitVec.msb_and, BitVec.msb_xor, BitVec.msb_xor]
  simp only [BitVec.msb_eq_decide, BitVec.toInt_eq_toNat_cond, Bool.and_eq_true, bne_iff_ne, ne_eq, decide_eq_decide]
  split_ifs <;> omega

/-- Result and carry together are the sum (42_alu R340). -/
theorem adcBinary_sum (f : Flags) (a v : Byte) :
    (adcBinary f a v).1.toNat + 256 * (adcBinary f a v).2.c.toNat = a.toNat + v.toNat + f.c.toNat := by
  have ha := a.isLt
  have hv := v.isLt
  have hc := f.c.toNat_le
  simp only [adcBinary, Flags.setNZ_c, BitVec.toNat_ofNat]
  by_cases carry : a.toNat + v.toNat + f.c.toNat > 0xFF
  · rw [decide_eq_true carry, Bool.toNat_true]
    omega
  · rw [decide_eq_false carry, Bool.toNat_false]
    omega

/-- V says that the signed sum does not fit (42_alu R340). -/
theorem adcBinary_v_iff (f : Flags) (a v : Byte) :
    (adcBinary f a v).2.v = true ↔ (adcBinary f a v).1.toInt ≠ a.toInt + v.toInt + f.c.toNat :=
  overflow_msb_iff f.c.toNat_le (adcBinary_sum f a v)

/-- Settles O10: binary ADC is `adcBinary`, whose two facts are `adcBinary_sum` and `adcBinary_v_iff`. -/
theorem binaryAddIsAddition : Obligations.BinaryAddIsAddition := by
  intro f a v binary
  rw [show adc f a v = adcBinary f a v from if_neg (by simp [binary])]
  exact ⟨adcBinary_sum f a v, adcBinary_v_iff f a v, rfl, Flags.setNZ_z_iff _ _, rfl, rfl⟩

/-- Settles O11: binary SBC is the binary sum with `255 - v`, which as a signed byte is `-1 - v`. -/
theorem binarySubtractIsSubtraction : Obligations.BinarySubtractIsSubtraction := by
  intro f a v binary
  rw [show sbc f a v = sbcBinary f a v from if_neg (by simp [binary]), sbcBinary]
  have sum := adcBinary_sum f a (v ^^^ 0xFF)
  have complement := toNat_xor_0xFF v
  have bound := (adcBinary f a (v ^^^ 0xFF)).1.isLt
  have carry := (adcBinary f a (v ^^^ 0xFF)).2.c.toNat_le
  refine ⟨by omega, ?_, ?_, rfl, Flags.setNZ_z_iff _ _, rfl, rfl⟩
  · rw [← Bool.toNat_eq_one]
    omega
  · rw [adcBinary_v_iff, toInt_xor_0xFF]
    omega

/-! ### Decimal sums and differences -/

/-- The low digit of a decimal sum: past 9 it is adjusted and carries 16 (42_alu R341). -/
def decimalLow (al vl c : Nat) : Nat := if 10 ≤ al + vl + c then (al + vl + c + 6) % 16 + 16 else al + vl + c

/-- A decimal sum before it is cut to a byte: past 9 the high digit is adjusted (42_alu R341). -/
def decimalSum (ah al vh vl c : Nat) : Nat :=
  let s := 16 * ah + 16 * vh + decimalLow al vl c
  if 160 ≤ s then s + 96 else s

/-- A decimal difference before it is cut to a byte: each digit that borrows is adjusted (42_alu R343). -/
def decimalDifference (ah al vh vl c : Nat) : Int :=
  let s : Int := (16 * ah + al) - (16 * vh + vl) + c - 1
  let s' := if s < 0 then s - 96 else s
  if (al : Int) - vl + c - 1 < 0 then s' - 6 else s'

/-- Two-digit numbers are added digit by digit: the decimal sum has the digits of the sum, and a carry of 256 where
that has one of 100. -/
theorem decimalSum_digits {ah al vh vl c : Nat} (hah : ah < 10) (hal : al < 10) (hvh : vh < 10) (hvl : vl < 10)
    (hc : c ≤ 1) : ∃ q h l, h < 10 ∧ l < 10 ∧ decimalSum ah al vh vl c = 256 * q + 16 * h + l ∧
      (10 * ah + al) + (10 * vh + vl) + c = 100 * q + 10 * h + l := by
  obtain ⟨low, hlow⟩ : ∃ low, low = al + vl + c := ⟨_, rfl⟩
  obtain ⟨high, hhigh⟩ : ∃ high, high = ah + vh + low / 10 := ⟨_, rfl⟩
  refine ⟨high / 10, high % 10, low % 10, Nat.mod_lt _ (by decide), Nat.mod_lt _ (by decide), ?_, by omega⟩
  dsimp only [decimalSum, decimalLow]
  split_ifs <;> omega

/-- Two-digit numbers are subtracted digit by digit: the decimal difference has the digits of the difference, and a
borrow of 256 where that has one of 100. -/
theorem decimalDifference_digits {ah al vh vl c : Nat} (hah : ah < 10) (hal : al < 10) (hvh : vh < 10)
    (hvl : vl < 10) (hc : c ≤ 1) : ∃ q h l : Int, (0 ≤ h ∧ h < 10) ∧ (0 ≤ l ∧ l < 10) ∧
      decimalDifference ah al vh vl c = 256 * q + 16 * h + l ∧
      ((10 * ah + al) - (10 * vh + vl) - (1 - c) : Int) = 100 * q + 10 * h + l := by
  obtain ⟨low, hlow⟩ : ∃ low : Int, low = al - vl + c - 1 := ⟨_, rfl⟩
  obtain ⟨high, hhigh⟩ : ∃ high : Int, high = ah - vh + low / 10 := ⟨_, rfl⟩
  refine ⟨high / 10, high % 10, low % 10, by omega, by omega, ?_, by omega⟩
  dsimp only [decimalDifference]
  split_ifs <;> omega

section
variable (f : Flags) {ah al vh vl : Nat} (hah : ah < 16) (hal : al < 16) (hvh : vh < 16) (hvl : vl < 16)
include hah hal hvh hvl

theorem adcDecimalLow_ofDigits :
    adcDecimalLow f (ofDigits ah al) (ofDigits vh vl) = decimalLow al vl f.c.toNat := by
  simp only [adcDecimalLow, toNat_ofDigits_and_0x0F hah hal, toNat_ofDigits_and_0x0F hvh hvl]
  rfl

/-- Decimal ADC of two bytes given by their digits (42_alu R341). -/
theorem adcDecimal_ofDigits :
    let s := decimalSum ah al vh vl f.c.toNat
    let ss := (ofDigits ah 0).toInt + (ofDigits vh 0).toInt + decimalLow al vl f.c.toNat
    adcDecimal f (ofDigits ah al) (ofDigits vh vl) = (BitVec.ofNat 8 s,
      ({ f with v := decide (ss < -128 ∨ 127 < ss), c := decide (256 ≤ s) }).setNZ (BitVec.ofNat 8 s)) := by
  simp only [adcDecimal, adcDecimalLow_ofDigits f hah hal hvh hvl, ofDigits_and_0xF0 hah hal,
    ofDigits_and_0xF0 hvh hvl, toNat_ofDigits hah (show 0 < 16 by decide),
    toNat_ofDigits hvh (show 0 < 16 by decide)]
  rfl

/-- Decimal SBC's result for two bytes given by their digits (42_alu R343). -/
theorem sbcDecimalResult_ofDigits :
    sbcDecimalResult f (ofDigits ah al) (ofDigits vh vl) =
      BitVec.ofInt 8 (decimalDifference ah al vh vl f.c.toNat) := by
  simp only [sbcDecimalResult, toNat_ofDigits_and_0x0F hah hal, toNat_ofDigits_and_0x0F hvh hvl,
    toNat_ofDigits hah hal, toNat_ofDigits hvh hvl, decimalDifference]
  push_cast
  rfl

end

/-- Settles O12: ADC and SBC cut `decimalSum` and `decimalDifference` to a byte, and of two-digit numbers these have
the digits of the sum and of the difference. -/
theorem decimalArithmeticOnBcd : Obligations.DecimalArithmeticOnBcd := by
  intro f ah al vh vl decimal hah hal hvh hvl a v c kept
  have add : adc f a v = _ := (if_pos decimal).trans (adcDecimal_ofDigits f hah hal hvh hvl)
  have sub : sbc f a v = sbcDecimal f a v := if_pos decimal
  have difference : (sbcDecimal f a v).1.toNat = decimalDifference ah al vh vl c % 256 := by
    rw [show (sbcDecimal f a v).1 = _ from sbcDecimalResult_ofDigits f hah hal hvh hvl, BitVec.toNat_ofInt]
    exact Int.toNat_of_nonneg (Int.emod_nonneg _ (by decide))
  rw [toInt_ofDigits_zero hah, toInt_ofDigits_zero hvh] at add
  rw [add, sub]
  refine ⟨⟨BitVec.toNat_ofNat .., decide_eq_true_iff, decide_eq_true_iff,
      ⟨rfl, Flags.setNZ_z_iff _ _, decimal, rfl⟩, fun ah9 al9 vh9 vl9 => ?_⟩,
    difference, rfl, rfl, ⟨rfl, Flags.setNZ_z_iff _ _, decimal, rfl⟩, fun ah9 al9 vh9 vl9 => ?_⟩
  · obtain ⟨q, h, l, hh, hl, digits, sum⟩ := decimalSum_digits ah9 al9 vh9 vl9 f.c.toNat_le
    have tens : (100 * q + 10 * h + l) % 100 = 10 * h + l := by omega
    rw [BitVec.toNat_ofNat, Flags.setNZ_c, decide_eq_true_iff, digits, sum, tens]
    omega
  · obtain ⟨q, h, l, hh, hl, digits, diff⟩ := decimalDifference_digits ah9 al9 vh9 vl9 f.c.toNat_le
    have tens : (100 * q + 10 * h + l) % 100 = 10 * h + l := by omega
    rw [difference, digits, diff, tens]
    omega

/-! ### The instructions -/

/-- BIT's operation looks at its mode only to tell the immediate form (42_alu R350). -/
theorem bitOp_eq (m : Mode) : bitOp m = if m = .imm then bitImmOp else bitMemOp := by
  cases m <;> rfl

/-- Settles O9: ADC and SBC are the read-class instructions with the decimal extra cycle. -/
theorem addAndSubtractComplete : Obligations.AddAndSubtractComplete := fun _ s wf start ready =>
  have mode := Mode.imm_or_isMem_of_load (.inl wf)
  ⟨completes_of_readSeq (op := adcOp)
      (f := fun v r => { r with a := (adc r.flags r.a v).1, flags := (adc r.flags r.a v).2 })
      (exec_of_seqOf wf rfl rfl s) (fun _ _ => rfl) mode start ready,
    completes_of_readSeq (op := sbcOp)
      (f := fun v r => { r with a := (sbc r.flags r.a v).1, flags := (sbc r.flags r.a v).2 })
      (exec_of_seqOf (i := .sbc _) wf rfl rfl s) (fun _ _ => rfl) mode start ready⟩

/-- Settles O13: AND, ORA and EOR are read-class instructions, whose operation sets A, N and Z. -/
theorem logicCompletes : Obligations.LogicCompletes := fun _ s wf start ready =>
  have mode := Mode.imm_or_isMem_of_load (.inl wf)
  ⟨completes_of_readSeq (f := fun v r => { r with a := r.a &&& v, flags := r.flags.setNZ (r.a &&& v) })
      (exec_of_seqOf wf rfl rfl s) (fun _ _ => rfl) mode start ready,
    completes_of_readSeq (f := fun v r => { r with a := r.a ||| v, flags := r.flags.setNZ (r.a ||| v) })
      (exec_of_seqOf (i := .ora _) wf rfl rfl s) (fun _ _ => rfl) mode start ready,
    completes_of_readSeq (f := fun v r => { r with a := r.a ^^^ v, flags := r.flags.setNZ (r.a ^^^ v) })
      (exec_of_seqOf (i := .eor _) wf rfl rfl s) (fun _ _ => rfl) mode start ready⟩

/-- Settles O14: each comparison is a read-class instruction, whose operation sets no register but the flags. -/
theorem comparesComplete : Obligations.ComparesComplete := fun _ s start ready =>
  ⟨fun wf => completes_of_readSeq (f := fun v r => { r with flags := compareFlags r.flags r.a v })
      (exec_of_seqOf wf rfl rfl s) (fun _ _ => rfl) (Mode.imm_or_isMem_of_load (.inl wf)) start ready,
    fun wf => completes_of_readSeq (f := fun v r => { r with flags := compareFlags r.flags r.x v })
      (exec_of_seqOf wf rfl rfl s) (fun _ _ => rfl)
      (Mode.imm_or_isMem_of_load (.inl (Mode.isAlu_of_isCpx wf))) start ready,
    fun wf => completes_of_readSeq (f := fun v r => { r with flags := compareFlags r.flags r.y v })
      (exec_of_seqOf wf rfl rfl s) (fun _ _ => rfl)
      (Mode.imm_or_isMem_of_load (.inl (Mode.isAlu_of_isCpx wf))) start ready⟩

/-- Settles O15: the immediate form and the memory forms are read-class instructions with an operation each. -/
theorem bitTestCompletes : Obligations.BitTestCompletes := by
  intro m s wf start ready
  have mode := Mode.imm_or_isMem_of_load (.inr (.inr wf))
  have run := exec_of_seqOf (i := .bit m) (q := readSeq m (bitOp m)) wf rfl rfl s
  rw [bitOp_eq] at run
  dsimp only
  split_ifs at run ⊢
  case pos =>
    exact completes_of_readSeq (f := fun v r => { r with flags := bitImmFlags r.flags r.a v }) run
      (fun _ _ => rfl) mode start ready
  case neg =>
    exact completes_of_readSeq (f := fun v r => { r with flags := bitMemFlags r.flags r.a v }) run
      (fun _ _ => rfl) mode start ready

end Sys2Proof.Machine
end

section
/-! PROOFS. Shifts, increments, bit set and reset: what their results are as numbers, and that the instructions run to
their end (43_rmw R370 to R383). -/

namespace Sys2Proof

/-- A read-modify-write instruction that is not on the accumulator is on a byte in memory (43_rmw R370 to R375, R380,
R381). -/
theorem Mode.isMem_of_rmw {m : Mode} (rmw : m.isShift = true ∧ m ≠ .acc ∨ m.isTsb = true) : m.isMem = true := by
  cases m
  case imm | acc | absInd | absIndX => exact absurd rmw (by decide)
  all_goals rfl

end Sys2Proof

namespace Sys2Proof.Machine

/-! ### Results as numbers -/

/-- A bit of a byte, as the number 0 or 1. -/
theorem toNat_getLsbD (v : Byte) (k : Nat) : (v.getLsbD k).toNat = v.toNat / 2 ^ k % 2 := Nat.toNat_testBit ..

/-- The carry flag as the byte a rotation brings it in by (43_rmw R372, R373). -/
theorem toNat_carryByte (c : Bool) : ((BitVec.ofBool c).setWidth 8).toNat = c.toNat := by
  cases c <;> rfl

/-- ROL doubles, the carry coming in below (43_rmw R372). -/
theorem rol_sum (f : Flags) (v : Byte) :
    (rol f v).1.toNat + 256 * (rol f v).2.c.toNat = 2 * v.toNat + f.c.toNat := by
  have bound := v.isLt
  have carryIn := f.c.toNat_lt
  have doubled : (v <<< 1).toNat = (v.toNat % 128) <<< 1 := by
    rw [BitVec.toNat_shiftLeft, Nat.shiftLeft_eq, Nat.shiftLeft_eq]
    omega
  have result : (rol f v).1.toNat = v.toNat % 128 * 2 + f.c.toNat := by
    rw [rol, BitVec.toNat_or, doubled, toNat_carryByte, ← Nat.shiftLeft_add_eq_or_of_lt carryIn, Nat.shiftLeft_eq]
  have carryOut : (rol f v).2.c.toNat = v.toNat / 128 % 2 := toNat_getLsbD v 7
  omega

/-- ROR halves, the carry coming in above (43_rmw R373). -/
theorem ror_sum (f : Flags) (v : Byte) :
    2 * (ror f v).1.toNat + (ror f v).2.c.toNat = v.toNat + 256 * f.c.toNat := by
  have bound := v.isLt
  have carryIn := f.c.toNat_le
  have halved : (v >>> 1).toNat = v.toNat / 2 := BitVec.toNat_ushiftRight ..
  have raised : ((BitVec.ofBool f.c).setWidth 8 <<< 7).toNat = f.c.toNat <<< 7 := by
    rw [BitVec.toNat_shiftLeft, toNat_carryByte, Nat.shiftLeft_eq]
    omega
  have result : (ror f v).1.toNat = f.c.toNat * 128 + v.toNat / 2 := by
    rw [ror, BitVec.toNat_or, raised, halved,
      ← Nat.shiftLeft_add_eq_or_of_lt (show v.toNat / 2 < 2 ^ 7 by omega), Nat.shiftLeft_eq]
  have carryOut : (ror f v).2.c.toNat = v.toNat / 1 % 2 := toNat_getLsbD v 0
  omega

/-- ASL is ROL with a clear carry (43_rmw R370, R372). -/
theorem asl_eq_rol (f : Flags) (v : Byte) : asl f v = rol { f with c := false } v := by
  have result : v <<< 1 = v <<< 1 ||| (BitVec.ofBool false).setWidth 8 := BitVec.or_zero.symm
  rw [asl, rol, ← result]

/-- LSR is ROR with a clear carry: a 0 comes in above, so N is clear (43_rmw R371, R373). -/
theorem lsr_eq_ror (f : Flags) (v : Byte) : lsr f v = ror { f with c := false } v := by
  have result : v >>> 1 = (BitVec.ofBool false).setWidth 8 <<< 7 ||| (v >>> 1) := BitVec.zero_or.symm
  have sign : (v >>> 1).msb = false := BitVec.msb_ushiftRight
  rw [lsr, ror, ← result, Flags.setNZ, sign]

/-- Settles O18: `rol_sum` and `ror_sum`, the shifts being the rotations with a clear carry; every operation sets N and
Z by `Flags.setNZ`. -/
theorem shiftArithmetic : Obligations.ShiftArithmetic := by
  intro f v nz
  rw [asl_eq_rol, lsr_eq_ror]
  have difference : (decByte f v).1.toNat = (v.toNat + 255) % 256 := by
    rw [decByte, BitVec.toNat_sub, Nat.add_comm]
    rfl
  exact ⟨⟨rol_sum _ v, rfl, Flags.setNZ_z_iff _ _, rfl, rfl, rfl⟩,
    ⟨ror_sum _ v, rfl, Flags.setNZ_z_iff _ _, rfl, rfl, rfl⟩,
    ⟨rol_sum f v, rfl, Flags.setNZ_z_iff _ _, rfl, rfl, rfl⟩,
    ⟨ror_sum f v, rfl, Flags.setNZ_z_iff _ _, rfl, rfl, rfl⟩,
    ⟨BitVec.toNat_add v 1, rfl, rfl, Flags.setNZ_z_iff _ _, rfl, rfl, rfl⟩,
    difference, rfl, rfl, Flags.setNZ_z_iff _ _, rfl, rfl, rfl⟩

/-- TRB's exclusive or with 0xFF is the complement of A (43_rmw R381). -/
theorem trb_eq (a : Byte) (f : Flags) (v : Byte) :
    trb a f v = (v &&& ~~~a, { f with z := decide (a &&& v = 0) }) := by
  have complement : a ^^^ 0xFF = ~~~a := BitVec.xor_allOnes
  rw [trb, complement]

/-! ### The instructions -/

/-- An accumulator instruction: `f` on the flags and A, after one dummy cycle (40_dispatch R210). -/
theorem completes_of_accSeq {i : Instr} {f : Flags → Byte → Byte × Flags} {s : State}
    (run : exec i s = runSeq (accSeq fun c v => f c.flags v) s) (ready : Ready s [s.dummy s.cpu.pc]) :
    Completes i s [s.dummy s.cpu.pc]
      { s.cpu.regs with a := (f s.cpu.flags s.cpu.a).1, flags := (f s.cpu.flags s.cpu.a).2 } :=
  completes_of_impliedSeq (f := fun r => { r with a := (f r.flags r.a).1, flags := (f r.flags r.a).2 }) run
    (fun _ => rfl) ready

/-- A read-modify-write of memory: `f` of A, the flags and the byte is written back, PC past the operand bytes
(40_dispatch R214, R217, R220, R223, R224). -/
theorem completesStoring_of_rmwSeq {i : Instr} {m : Mode} {always : Bool} {f : Byte → Flags → Byte → Byte × Flags}
    {s : State} (run : exec i s = runSeq (rmwSeq m always fun c v => f c.a c.flags v) s) (mode : m.isMem = true)
    (start : s.cpu.cycle = 1) :
    let x := f s.cpu.a s.cpu.flags (s.byteAt (s.effAddr m))
    Ready s (s.rmwTrace m always x.1) →
      CompletesStoring i s (s.rmwTrace m always x.1) { s.cpu.regs with pc := s.pcAfter m, flags := x.2 }
        (s.effAddr m) x.1 := by
  intro x ready
  have memory : ∀ op, rmwSeq m always op = memRmwSeq m always op := by
    cases m
    case acc => cases mode
    all_goals exact fun _ => rfl
  rw [CompletesStoring, run, memory]
  refine memRmwSeq_completes (fun d _ regs => ?_) mode start ready
  have a : d.a = s.cpu.a := congrArg Regs.a regs
  have flags : d.flags = s.cpu.flags := congrArg Regs.flags regs
  rw [a, flags]

/-- Settles O16: the accumulator forms, and the implied instructions that increment and decrement X and Y. -/
theorem registerFormsComplete : Obligations.RegisterFormsComplete := fun s _ ready =>
  ⟨⟨completes_of_accSeq (f := asl) (exec_of_seqOf rfl rfl rfl s) ready,
      completes_of_accSeq (f := lsr) (exec_of_seqOf rfl rfl rfl s) ready,
      completes_of_accSeq (f := rol) (exec_of_seqOf rfl rfl rfl s) ready,
      completes_of_accSeq (f := ror) (exec_of_seqOf rfl rfl rfl s) ready,
      completes_of_accSeq (f := incByte) (exec_of_seqOf rfl rfl rfl s) ready,
      completes_of_accSeq (f := decByte) (exec_of_seqOf rfl rfl rfl s) ready⟩,
    completes_of_impliedSeq (f := fun r => { r with x := r.x + 1, flags := r.flags.setNZ (r.x + 1) })
      (exec_of_seqOf rfl rfl rfl s) (fun _ => rfl) ready,
    completes_of_impliedSeq (f := fun r => { r with y := r.y + 1, flags := r.flags.setNZ (r.y + 1) })
      (exec_of_seqOf rfl rfl rfl s) (fun _ => rfl) ready,
    completes_of_impliedSeq (f := fun r => { r with x := r.x - 1, flags := r.flags.setNZ (r.x - 1) })
      (exec_of_seqOf rfl rfl rfl s) (fun _ => rfl) ready,
    completes_of_impliedSeq (f := fun r => { r with y := r.y - 1, flags := r.flags.setNZ (r.y - 1) })
      (exec_of_seqOf rfl rfl rfl s) (fun _ => rfl) ready⟩

/-- Settles O17: each is a read-modify-write of memory by its operation of the flags and the byte. -/
theorem memoryShiftsComplete : Obligations.MemoryShiftsComplete := fun m s wf notAcc start =>
  have mode := Mode.isMem_of_rmw (.inl ⟨wf, notAcc⟩)
  ⟨completesStoring_of_rmwSeq (f := fun _ => asl) (exec_of_seqOf wf rfl rfl s) mode start,
    completesStoring_of_rmwSeq (f := fun _ => lsr) (exec_of_seqOf (i := .lsr m) wf rfl rfl s) mode start,
    completesStoring_of_rmwSeq (f := fun _ => rol) (exec_of_seqOf (i := .rol m) wf rfl rfl s) mode start,
    completesStoring_of_rmwSeq (f := fun _ => ror) (exec_of_seqOf (i := .ror m) wf rfl rfl s) mode start,
    completesStoring_of_rmwSeq (f := fun _ => incByte) (exec_of_seqOf (i := .inc m) wf rfl rfl s) mode start,
    completesStoring_of_rmwSeq (f := fun _ => decByte) (exec_of_seqOf (i := .dec m) wf rfl rfl s) mode start⟩

/-- Settles O19: TSB and TRB are read-modify-writes of memory by their operations of A, the flags and the byte. -/
theorem testAndSetBitsComplete : Obligations.TestAndSetBitsComplete := by
  intro m s wf start
  have mode := Mode.isMem_of_rmw (.inr wf)
  have reset := completesStoring_of_rmwSeq (f := trb) (exec_of_seqOf (i := .trb m) wf rfl rfl s) mode start
  rw [trb_eq] at reset
  exact ⟨completesStoring_of_rmwSeq (f := tsb) (exec_of_seqOf wf rfl rfl s) mode start, reset⟩

/-- Bit reset: the zero-page byte keeps the bits of the complement of `1 << n` (43_rmw R382). -/
theorem completesStoring_of_rmb {i : Instr} {n : Nat} {s : State} {mask : Byte} (kept : bitMask n ^^^ 0xFF = mask)
    (run : exec i s = runSeq (rmwSeq .zp false fun c v => rmb n c.flags v) s) (start : s.cpu.cycle = 1) :
    let w := s.byteAt (s.effAddr .zp) &&& mask
    Ready s (s.rmwTrace .zp false w) →
      CompletesStoring i s (s.rmwTrace .zp false w) { s.cpu.regs with pc := s.cpu.pc + 1 } (zpAddr s.b1) w := by
  subst kept
  exact completesStoring_of_rmwSeq (f := fun _ => rmb n) run rfl start

/-- Bit set: the zero-page byte gains the bit `1 << n` (43_rmw R383). -/
theorem completesStoring_of_smb {i : Instr} {n : Nat} {s : State} {mask : Byte} (gained : bitMask n = mask)
    (run : exec i s = runSeq (rmwSeq .zp false fun c v => smb n c.flags v) s) (start : s.cpu.cycle = 1) :
    let w := s.byteAt (s.effAddr .zp) ||| mask
    Ready s (s.rmwTrace .zp false w) →
      CompletesStoring i s (s.rmwTrace .zp false w) { s.cpu.regs with pc := s.cpu.pc + 1 } (zpAddr s.b1) w := by
  subst gained
  exact completesStoring_of_rmwSeq (f := fun _ => smb n) run rfl start

/-- Settles O20: each instruction is bit reset or bit set with its own mask. -/
theorem bitSetAndResetComplete : Obligations.BitSetAndResetComplete := fun s start =>
  ⟨⟨completesStoring_of_rmb (n := 0) rfl (exec_of_seqOf rfl rfl rfl s) start,
      completesStoring_of_rmb (n := 1) rfl (exec_of_seqOf rfl rfl rfl s) start,
      completesStoring_of_rmb (n := 2) rfl (exec_of_seqOf rfl rfl rfl s) start,
      completesStoring_of_rmb (n := 3) rfl (exec_of_seqOf rfl rfl rfl s) start,
      completesStoring_of_rmb (n := 4) rfl (exec_of_seqOf rfl rfl rfl s) start,
      completesStoring_of_rmb (n := 5) rfl (exec_of_seqOf rfl rfl rfl s) start,
      completesStoring_of_rmb (n := 6) rfl (exec_of_seqOf rfl rfl rfl s) start,
      completesStoring_of_rmb (n := 7) rfl (exec_of_seqOf rfl rfl rfl s) start⟩,
    completesStoring_of_smb (n := 0) rfl (exec_of_seqOf rfl rfl rfl s) start,
    completesStoring_of_smb (n := 1) rfl (exec_of_seqOf rfl rfl rfl s) start,
    completesStoring_of_smb (n := 2) rfl (exec_of_seqOf rfl rfl rfl s) start,
    completesStoring_of_smb (n := 3) rfl (exec_of_seqOf rfl rfl rfl s) start,
    completesStoring_of_smb (n := 4) rfl (exec_of_seqOf rfl rfl rfl s) start,
    completesStoring_of_smb (n := 5) rfl (exec_of_seqOf rfl rfl rfl s) start,
    completesStoring_of_smb (n := 6) rfl (exec_of_seqOf rfl rfl rfl s) start,
    completesStoring_of_smb (n := 7) rfl (exec_of_seqOf rfl rfl rfl s) start⟩

end Sys2Proof.Machine
end

section
/-! PROOFS. Control transfer: branches, jumps, the call and the returns run to their end, BRK ignores its signature or
enters its handler (44_control R401 to R418), and a return undoes the entry before it (60_exceptions R755). -/

namespace Sys2Proof.Machine

/-! ### Branches -/

/-- The target of a branch is the signed sum modulo 2^16 (30_encoding R170, R173). -/
theorem branchTarget_eq_ofInt (next : Addr) (off : Byte) :
    branchTarget next off = BitVec.ofInt 16 (next.toNat + off.toInt) := by
  rw [BitVec.ofInt_add, BitVec.ofInt_natCast, BitVec.ofNat_toNat, BitVec.setWidth_eq]
  rfl

/-- A relative branch goes to its target where its condition on the flags holds (40_dispatch R230). -/
theorem completes_of_branchSeq {i : Instr} {cond : Flags → Bool} {s : State}
    (run : exec i s = runSeq (branchSeq cond) s) (start : s.cpu.cycle = 1) :
    let taken := cond s.cpu.flags
    let next := s.cpu.pc + 1
    Ready s (s.branchTrace taken) →
      Completes i s (s.branchTrace taken) { s.cpu.regs with
        pc := if taken then BitVec.ofInt 16 (next.toNat + s.b1.toInt) else next } := by
  intro taken next ready
  rw [Completes, run, ← branchTarget_eq_ofInt]
  exact branchSeq_completes start ready

/-- Settles O21: each branch is the relative branch on its own condition. -/
theorem branchesComplete : Obligations.BranchesComplete := fun s start =>
  ⟨completes_of_branchSeq (cond := fun f => !f.n) (exec_of_seqOf rfl rfl rfl s) start,
    completes_of_branchSeq (cond := Flags.n) (exec_of_seqOf rfl rfl rfl s) start,
    completes_of_branchSeq (cond := fun f => !f.v) (exec_of_seqOf rfl rfl rfl s) start,
    completes_of_branchSeq (cond := Flags.v) (exec_of_seqOf rfl rfl rfl s) start,
    completes_of_branchSeq (cond := fun f => !f.c) (exec_of_seqOf rfl rfl rfl s) start,
    completes_of_branchSeq (cond := Flags.c) (exec_of_seqOf rfl rfl rfl s) start,
    completes_of_branchSeq (cond := fun f => !f.z) (exec_of_seqOf rfl rfl rfl s) start,
    completes_of_branchSeq (cond := Flags.z) (exec_of_seqOf rfl rfl rfl s) start,
    completes_of_branchSeq (cond := fun _ => true) (exec_of_seqOf rfl rfl rfl s) start⟩

/-- A bit branch goes to its target where bit `n` of its zero-page byte is `b` (40_dispatch R231). -/
theorem completes_of_bitBranchSeq {i : Instr} {n : Nat} {b taken : Bool} {s : State}
    (run : exec i s = runSeq (bitBranchSeq n b) s) (start : s.cpu.cycle = 1)
    (condition : ((s.byteAt (zpAddr s.b1)).getLsbD n == b) = taken) :
    let next := s.cpu.pc + 2
    Ready s (s.bitBranchTrace taken) →
      Completes i s (s.bitBranchTrace taken) { s.cpu.regs with
        pc := if taken then BitVec.ofInt 16 (next.toNat + s.b2.toInt) else next } := by
  intro next ready
  subst condition
  rw [Completes, run, ← branchTarget_eq_ofInt]
  exact bitBranchSeq_completes start ready

/-- Settles O22: BBRn is taken on a clear bit, BBSn on a set one. -/
theorem bitBranchesComplete : Obligations.BitBranchesComplete := fun s start =>
  have bbr {i : Instr} {n : Nat} (run : exec i s = runSeq (bitBranchSeq n false) s) :=
    completes_of_bitBranchSeq run start (beq_false _)
  have bbs {i : Instr} {n : Nat} (run : exec i s = runSeq (bitBranchSeq n true) s) :=
    completes_of_bitBranchSeq run start (beq_true _)
  ⟨⟨bbr (exec_of_seqOf rfl rfl rfl s), bbr (exec_of_seqOf rfl rfl rfl s), bbr (exec_of_seqOf rfl rfl rfl s),
      bbr (exec_of_seqOf rfl rfl rfl s), bbr (exec_of_seqOf rfl rfl rfl s), bbr (exec_of_seqOf rfl rfl rfl s),
      bbr (exec_of_seqOf rfl rfl rfl s), bbr (exec_of_seqOf rfl rfl rfl s)⟩,
    bbs (exec_of_seqOf rfl rfl rfl s), bbs (exec_of_seqOf rfl rfl rfl s), bbs (exec_of_seqOf rfl rfl rfl s),
    bbs (exec_of_seqOf rfl rfl rfl s), bbs (exec_of_seqOf rfl rfl rfl s), bbs (exec_of_seqOf rfl rfl rfl s),
    bbs (exec_of_seqOf rfl rfl rfl s), bbs (exec_of_seqOf rfl rfl rfl s)⟩

/-! ### Jumps and the call -/

/-- Without an index the pointer is the operand (30_encoding R171). -/
theorem State.jmpPointer_absInd (s : State) : s.jmpPointer .absInd = word s.b2 s.b1 := BitVec.add_zero _

/-- An indirect JMP goes to the word at its pointer, the second byte at the next address of the 16-bit space
(40_dispatch R233, R234). -/
theorem completes_of_jmpIndSeq {i : Instr} {m : Mode} {s : State} {p : Addr}
    (run : exec i s = runSeq (jmpIndSeq m) s) (start : s.cpu.cycle = 1) (pointer : s.jmpPointer m = p)
    (ready : Ready s (s.jmpIndTrace m)) :
    Completes i s (s.jmpIndTrace m) { s.cpu.regs with pc := word (s.byteAt (p + 1)) (s.byteAt p) } := by
  subst pointer
  rw [Completes, run]
  exact jmpIndSeq_completes start ready

/-- Settles O23: one absolute sequence, and the indirect one at two pointers. -/
theorem jumpsComplete : Obligations.JumpsComplete := by
  intro s start
  refine ⟨fun ready => ?_, completes_of_jmpIndSeq (exec_of_seqOf rfl rfl rfl s) start s.jmpPointer_absInd,
    completes_of_jmpIndSeq (exec_of_seqOf rfl rfl rfl s) start rfl⟩
  rw [Completes, exec_of_seqOf (i := .jmp .abs) rfl rfl rfl]
  exact jmpAbsSeq_completes start ready

/-- JSR leaves RAM as the two pushes of the address of its last byte do (40_dispatch R235). -/
theorem jsr_completes {s : State} (start : s.cpu.cycle = 1) (ready : Ready s s.jsrTrace) :
    ∃ t, exec .jsr s = .next t ∧ Completed s s.jsrTrace t ∧
      t.cpu.regs = { s.cpu.regs with
        sp := s.cpu.sp - 2, pc := word ((s.pushedPc (s.cpu.pc + 1)).byteAt (s.cpu.pc + 1)) s.b1 } ∧
      t.ram = (s.pushedPc (s.cpu.pc + 1)).ram := by
  rw [exec_of_seqOf rfl rfl rfl]
  exact jumpSubroutineSeq_completes start ready

/-- Settles O24: what memory reads as after the call is what it reads as after the two pushes. -/
theorem callCompletes : Obligations.CallCompletes := by
  intro s start ready
  obtain ⟨t, runs, completed, regs, ram⟩ := jsr_completes start ready
  refine ⟨t, runs, completed, regs, ?_⟩
  rw [ram]
  exact pushedPc_reads s (s.cpu.pc + 1)

/-! ### Returns -/

/-- Settles O25: RTS is the return from a subroutine. -/
theorem subroutineReturnCompletes : Obligations.SubroutineReturnCompletes := by
  intro s start ready
  rw [Completes, exec_of_seqOf rfl rfl rfl]
  exact returnSubroutineSeq_completes start ready

/-- Settles O26: RTI is the return from a handler, and the flags are those the pulled status byte holds. -/
theorem interruptReturnCompletes : Obligations.InterruptReturnCompletes := by
  intro s start ready
  rw [Completes, exec_of_seqOf rfl rfl rfl]
  exact returnSeq_completes start ready

/-! ### BRK -/

/-- Memory after an entry: the two bytes of PC and a status byte with the given B, bit 5 and the flags, and every
other byte as before (10_state R35, 60_exceptions R751). -/
theorem entry_reads (s : State) (pc : Addr) (b : Bool) :
    let sp := s.cpu.sp
    let ram := (s.pushedAll pc b).ram
    ramRead ram (stackAddr sp) = hiByte pc ∧ ramRead ram (stackAddr (sp - 1)) = loByte pc ∧
      (let p := ramRead ram (stackAddr (sp - 2))
       p.getLsbD 4 = b ∧ p.getLsbD 5 = true ∧ Flags.unpack p = s.cpu.flags) ∧
      ∀ a, a ≠ stackAddr sp → a ≠ stackAddr (sp - 1) → a ≠ stackAddr (sp - 2) →
        ramRead ram a = ramRead s.ram a := by
  intro sp ram
  obtain ⟨high, low, status, others⟩ := pushedAll_reads s pc b
  refine ⟨high, low, ?_, others⟩
  rw [status]
  exact unpack_pack b s.cpu.flags

/-- Settles O27: the signature decides between the end of the sequence and the entry to the handler. -/
theorem breakCompletes : Obligations.BreakCompletes := by
  intro s start
  have run := exec_of_seqOf (i := .brk) (q := breakSeq) rfl rfl rfl s
  refine ⟨fun ignored ready => ?_, fun taken ready => ?_⟩
  · rw [Completes, run]
    exact breakSeq_ignored start ignored ready
  · obtain ⟨t, runs, completed, regs, ram, -⟩ := breakSeq_completes start taken ready
    refine ⟨t, run.trans runs, completed, regs, ?_⟩
    rw [ram]
    exact entry_reads s (s.cpu.pc + 1) true

/-! ### Taking an interrupt -/

/-- The vector of the NMI, or of the IRQ (60_exceptions R750). -/
def takenVector (nmi : Bool) : Addr := if nmi then 0xFFFA else 0xFFFE

/-- `s` at the first bus cycle of the interrupt taken: the sequence is fixed, and the NMI no longer pending
(60_exceptions R751, R754). -/
def State.interrupted (s : State) (nmi : Bool) : State :=
  { s.awakened with
    cpu := { s.awakened.cpu with opcode := if nmi then .nmi else .irq, pendNmi := false } }

/-- The step at a boundary that takes an interrupt is its sequence (60_exceptions R754, R772). -/
theorem step_of_takesInterrupt {nmi : Bool} {s : State} {tr : List BusRecord} (takes : TakesInterrupt nmi s)
    (ready : Ready s tr) : step s = runSeq (interruptSeq (takenVector nmi)) (s.interrupted nmi) := by
  obtain ⟨boundary, unbroken, awake, noReset, chosen⟩ := takes
  rw [step_boundary ready boundary, stepBoundary_answered ready.answered]
  cases nmi with
  | true =>
    have pending : s.cpu.pendNmi = true := chosen
    have choice : s.cpu.interruptChoice s.irqLine = some .nmi := by
      simp [Cpu.interruptChoice, noReset, pending]
    rw [boundary_interrupt unbroken (wakes_of_not_stopped awake (.inr (.inl pending))) choice]
    rfl
  | false =>
    obtain ⟨noNmi, line, enabled⟩ := chosen
    have choice : s.cpu.interruptChoice s.irqLine = some .irq := by
      simp [Cpu.interruptChoice, noReset, noNmi, line, enabled]
    have started : s.awakened.cpu.startInterrupt .irq = (s.interrupted false).cpu := by
      simp [Cpu.startInterrupt, State.interrupted, State.awakened, noNmi]
    rw [boundary_interrupt unbroken (wakes_of_not_stopped awake (.inl line)) choice, started]
    rfl

/-- A taken interrupt leaves RAM as the pushes of PC and the status byte with B clear do (60_exceptions R751). -/
theorem interrupt_completes {nmi : Bool} {s : State} (takes : TakesInterrupt nmi s)
    (ready : Ready s (s.interruptTrace (takenVector nmi))) :
    ∃ t, step s = .next t ∧ Completed (s.interrupted nmi) (s.interruptTrace (takenVector nmi)) t ∧
      t.cpu.regs = { s.cpu.regs with
        sp := s.cpu.sp - 3, pc := s.vectorAt s.cpu.pc false (takenVector nmi), flags := s.cpu.flags.entered } ∧
      t.ram = (s.pushedAll s.cpu.pc false).ram := by
  rw [step_of_takesInterrupt takes ready]
  exact interruptSeq_completes (s := s.interrupted nmi) takes.boundary
    (ready.of_same rfl rfl rfl rfl rfl rfl rfl rfl rfl)

/-! ### A return undoes the entry before it -/

/-- A read of the stack page is a read of RAM, whatever MAPCTL (20_memory R102). -/
theorem State.byteAt_stackAddr (s : State) (sp : Byte) : s.byteAt (stackAddr sp) = ramRead s.ram (stackAddr sp) :=
  if_pos (route_stackAddr s.mapctl sp)

/-- Two pulls give the word whose bytes stand on the stack, low byte first (10_state R33). -/
theorem pulledWord_eq {u : State} {n : Byte} {pc : Addr}
    (high : ramRead u.ram (stackAddr (u.cpu.sp + (n + 1))) = hiByte pc)
    (low : ramRead u.ram (stackAddr (u.cpu.sp + n)) = loByte pc) : u.pulledWord n = pc :=
  calc u.pulledWord n
    _ = word (hiByte pc) (loByte pc) := by
      rw [State.pulledWord, State.pulled, State.pulled, State.byteAt_stackAddr, State.byteAt_stackAddr, high, low]
    _ = pc := word_hi_lo pc

/-- Two pulls after the pushes of PC give PC back. -/
theorem pulledWord_of_pushedPc {s u : State} {pc : Addr} (ram : u.ram = (s.pushedPc pc).ram)
    (sp : u.cpu.sp = s.cpu.sp - 2) : u.pulledWord 1 = pc := by
  have first : u.cpu.sp + 1 = s.cpu.sp - 1 := by rw [sp]; bv_omega
  have second : u.cpu.sp + (1 + 1) = s.cpu.sp := by rw [sp]; bv_omega
  obtain ⟨high, low, -⟩ := pushedPc_reads s pc
  apply pulledWord_eq
  · rw [second, ram, high]
  · rw [first, ram, low]

/-- Three pulls after the pushes of PC and the status byte give both back. -/
theorem pulled_of_pushedAll {s u : State} {pc : Addr} {b : Bool} (ram : u.ram = (s.pushedAll pc b).ram)
    (sp : u.cpu.sp = s.cpu.sp - 3) : u.pulled 1 = s.cpu.flags.pack b ∧ u.pulledWord 2 = pc := by
  have first : u.cpu.sp + 1 = s.cpu.sp - 2 := by rw [sp]; bv_omega
  have second : u.cpu.sp + 2 = s.cpu.sp - 1 := by rw [sp]; bv_omega
  have third : u.cpu.sp + (2 + 1) = s.cpu.sp := by rw [sp]; bv_omega
  obtain ⟨high, low, status, -⟩ := pushedAll_reads s pc b
  refine ⟨?_, pulledWord_eq ?_ ?_⟩
  · rw [State.pulled, first, State.byteAt_stackAddr, ram, status]
  · rw [third, ram, high]
  · rw [second, ram, low]

/-- RTI after the pushes of an entry, whatever its B, gives back S, PC and the flags. -/
theorem rti_undoes_pushedAll {s u : State} {pc : Addr} {b : Bool} (ram : u.ram = (s.pushedAll pc b).ram)
    (sp : u.cpu.sp = s.cpu.sp - 3) (start : u.cpu.cycle = 1) (ready : Ready u u.rtiTrace) :
    ∃ v, exec .rti u = .next v ∧ v.cpu.sp = s.cpu.sp ∧ v.cpu.pc = pc ∧ v.cpu.flags = s.cpu.flags := by
  obtain ⟨status, address⟩ := pulled_of_pushedAll ram sp
  obtain ⟨v, runs, -, regs, -⟩ := interruptReturnCompletes u start ready
  refine ⟨v, runs, ?_, (congrArg Regs.pc regs).trans address, ?_⟩
  · calc v.cpu.sp
      _ = u.cpu.sp + 3 := congrArg Regs.sp regs
      _ = s.cpu.sp := by rw [sp]; bv_omega
  · calc v.cpu.flags
      _ = Flags.unpack (u.pulled 1) := congrArg Regs.flags regs
      _ = s.cpu.flags := by rw [status, (unpack_pack b s.cpu.flags).2.2]

/-- RTS after the pushes of PC gives back S, and the address after the one pushed. -/
theorem rts_undoes_pushedPc {s u : State} {pc : Addr} (ram : u.ram = (s.pushedPc pc).ram)
    (sp : u.cpu.sp = s.cpu.sp - 2) (start : u.cpu.cycle = 1) (ready : Ready u u.rtsTrace) :
    ∃ v, exec .rts u = .next v ∧ v.cpu.sp = s.cpu.sp ∧ v.cpu.pc = pc + 1 := by
  obtain ⟨v, runs, -, regs, -⟩ := subroutineReturnCompletes u start ready
  refine ⟨v, runs, ?_, ?_⟩
  · calc v.cpu.sp
      _ = u.cpu.sp + 2 := congrArg Regs.sp regs
      _ = s.cpu.sp := by rw [sp]; bv_omega
  · calc v.cpu.pc
      _ = u.pulledWord 1 + 1 := congrArg Regs.pc regs
      _ = pc + 1 := by rw [pulledWord_of_pushedPc ram sp]

/-- Settles O35: the return pulls what the entry pushed, from RAM and S as the entry left them. -/
theorem returnsUndoEntries : Obligations.ReturnsUndoEntries := by
  refine ⟨fun nmi s t u takes ready steps start ram sp readyBack => ?_,
    fun s t u call ready runs start ram sp readyBack => ?_⟩
  · obtain ⟨t', steps', -, regs, pushed⟩ := interrupt_completes takes ready
    obtain rfl : t = t' := Host.Outcome.next.inj (steps.symm.trans steps')
    exact rti_undoes_pushedAll (ram.trans pushed) (sp.trans (congrArg Regs.sp regs)) start readyBack
  · obtain ⟨t', runs', -, regs, pushed⟩ := jsr_completes call ready
    obtain rfl : t = t' := Host.Outcome.next.inj (runs.symm.trans runs')
    obtain ⟨v, returns, depth, address⟩ :=
      rts_undoes_pushedPc (ram.trans pushed) (sp.trans (congrArg Regs.sp regs)) start readyBack
    exact ⟨v, returns, depth, address.trans (add_one_one s.cpu.pc)⟩

end Sys2Proof.Machine
end

section
/-! PROOFS. Stack, flag, no-op and halt instructions run to their end (45_stack_flags_misc R430 to R453). -/

namespace Sys2Proof.Machine

/-! ### Pushes and pulls -/

/-- The stack address of S is the sum 0x0100 + S (10_state R33). -/
theorem stackAddr_eq_add (sp : Byte) : stackAddr sp = 0x0100 + zext16 sp := by
  apply BitVec.eq_of_toNat_eq
  calc (word 0x01 sp).toNat
    _ = 1 <<< 8 ||| sp.toNat := BitVec.toNat_append 0x01 sp
    _ = 1 <<< 8 + sp.toNat := (Nat.shiftLeft_add_eq_or_of_lt sp.isLt 1).symm
    _ = (0x0100 + zext16 sp).toNat := by
      rw [zext16]
      bv_omega

/-- A push stores `f` of the registers at 0x0100 + S and decrements S (40_dispatch R239). -/
theorem completesStoring_of_pushSeq {i : Instr} {value : Cpu → Byte} {f : Regs → Byte} {s : State}
    (run : exec i s = runSeq (pushSeq value) s) (stored : ∀ c, value c = f c.regs) (start : s.cpu.cycle = 1)
    (ready : Ready s (s.pushTrace (f s.cpu.regs))) :
    CompletesStoring i s (s.pushTrace (f s.cpu.regs)) { s.cpu.regs with sp := s.cpu.sp - 1 }
      (0x0100 + zext16 s.cpu.sp) (f s.cpu.regs) := by
  rw [CompletesStoring, run, ← stackAddr_eq_add]
  exact pushSeq_completes start (stored _) ready

/-- Settles O28: each push stores its register, PHP the packed flags, from which `unpack_pack` gives them back. -/
theorem pushesComplete : Obligations.PushesComplete := fun s start =>
  ⟨completesStoring_of_pushSeq (f := Regs.a) (exec_of_seqOf rfl rfl rfl s) (fun _ => rfl) start,
    completesStoring_of_pushSeq (f := Regs.x) (exec_of_seqOf rfl rfl rfl s) (fun _ => rfl) start,
    completesStoring_of_pushSeq (f := Regs.y) (exec_of_seqOf rfl rfl rfl s) (fun _ => rfl) start,
    completesStoring_of_pushSeq (f := fun r => r.flags.pack true) (exec_of_seqOf rfl rfl rfl s) (fun _ => rfl)
      start,
    unpack_pack true s.cpu.flags⟩

/-- A pull does `f` to the registers with the byte at 0x0100 + S + 1, S incremented (40_dispatch R240). -/
theorem completes_of_pullSeq {i : Instr} {op : Byte → Cpu → Cpu} {f : Byte → Regs → Regs} {s : State}
    (run : exec i s = runSeq (pullSeq op) s) (operation : ∀ v c, op v c = c.withRegs (f v c.regs))
    (start : s.cpu.cycle = 1) (ready : Ready s s.pullTrace) :
    Completes i s s.pullTrace
      (f (s.byteAt (0x0100 + zext16 (s.cpu.sp + 1))) { s.cpu.regs with sp := s.cpu.sp + 1 }) := by
  rw [Completes, run, ← stackAddr_eq_add]
  exact pullSeq_completes operation start ready

/-- Settles O29: PLA, PLX and PLY set their register, N and Z, and PLP unpacks the flags. -/
theorem pullsComplete : Obligations.PullsComplete := fun s start ready =>
  ⟨completes_of_pullSeq (f := fun v r => { r with a := v, flags := r.flags.setNZ v })
      (exec_of_seqOf rfl rfl rfl s) (fun _ _ => rfl) start ready,
    completes_of_pullSeq (f := fun v r => { r with x := v, flags := r.flags.setNZ v })
      (exec_of_seqOf rfl rfl rfl s) (fun _ _ => rfl) start ready,
    completes_of_pullSeq (f := fun v r => { r with y := v, flags := r.flags.setNZ v })
      (exec_of_seqOf rfl rfl rfl s) (fun _ _ => rfl) start ready,
    completes_of_pullSeq (f := fun v r => { r with flags := Flags.unpack v })
      (exec_of_seqOf rfl rfl rfl s) (fun _ _ => rfl) start ready⟩

/-! ### Flag instructions -/

/-- A flag instruction: `g` on the flags, after one dummy cycle (40_dispatch R210). -/
theorem completes_of_flagSeq {i : Instr} {g : Flags → Flags} {s : State}
    (run : exec i s = runSeq (impliedSeq fun c => { c with flags := g c.flags }) s)
    (ready : Ready s [s.dummy s.cpu.pc]) :
    Completes i s [s.dummy s.cpu.pc] { s.cpu.regs with flags := g s.cpu.flags } :=
  completes_of_impliedSeq (f := fun r => { r with flags := g r.flags }) run (fun _ => rfl) ready

/-- Settles O30: each instruction sets or clears the one flag it names. -/
theorem flagInstructionsComplete : Obligations.FlagInstructionsComplete := fun s _ ready =>
  ⟨completes_of_flagSeq (g := fun f => { f with c := false }) (exec_of_seqOf rfl rfl rfl s) ready,
    completes_of_flagSeq (g := fun f => { f with c := true }) (exec_of_seqOf rfl rfl rfl s) ready,
    completes_of_flagSeq (g := fun f => { f with i := false }) (exec_of_seqOf rfl rfl rfl s) ready,
    completes_of_flagSeq (g := fun f => { f with i := true }) (exec_of_seqOf rfl rfl rfl s) ready,
    completes_of_flagSeq (g := fun f => { f with d := false }) (exec_of_seqOf rfl rfl rfl s) ready,
    completes_of_flagSeq (g := fun f => { f with d := true }) (exec_of_seqOf rfl rfl rfl s) ready,
    completes_of_flagSeq (g := fun f => { f with v := false }) (exec_of_seqOf rfl rfl rfl s) ready⟩

/-! ### No-ops -/

/-- The one-cycle no-op is complete at its fetch: it makes no bus cycle and changes no register
(45_stack_flags_misc R446, 40_dispatch R242). -/
theorem nopOne_completes {op : Byte} (wf : (Instr.nopOne op).wf = true) (s : State) :
    Completes (.nopOne op) s [] s.cpu.regs := by
  have ended : s.cpu.EndsAs s.cpu.finish := Cpu.Within.endsAs rfl
  refine ⟨{ s with cpu := s.cpu.finish }, ?_, ⟨rfl, rfl, (List.append_nil _).symm, ended⟩, rfl, rfl⟩
  exact exec_eq_runSeq wf s

/-- A read no-op reads its operand, drops it, and passes its operand bytes (40_dispatch R243). -/
theorem completes_of_dropSeq {i : Instr} {m : Mode} {s : State} (run : exec i s = runSeq (readSeq m dropOp) s)
    (mode : m = .imm ∨ m.isMem = true) (start : s.cpu.cycle = 1) (ready : Ready s (s.readTrace m false)) :
    Completes i s (s.readTrace m false) { s.cpu.regs with pc := s.pcAfter m } :=
  completes_of_readSeq (f := fun _ r => r) run (fun _ _ => rfl) mode start ready

/-- Settles O31: NOP is an implied instruction that does nothing, the one-cycle no-op is complete as it is, 0x5C has a
sequence of its own, and the others read an operand and drop it. -/
theorem noOpsComplete : Obligations.NoOpsComplete := fun op s start =>
  ⟨fun wf => completes_of_impliedSeq (f := fun r => r) (exec_of_seqOf wf rfl rfl s) (fun _ => rfl),
    fun wf _ => nopOne_completes wf s,
    fun wf => completes_of_dropSeq (exec_of_seqOf wf rfl rfl s) (.inl rfl) start,
    fun wf => completes_of_dropSeq (exec_of_seqOf wf rfl rfl s) (.inr rfl) start,
    fun wf => completes_of_dropSeq (exec_of_seqOf wf rfl rfl s) (.inr rfl) start,
    fun wf => completes_of_dropSeq (exec_of_seqOf wf rfl rfl s) (.inr rfl) start,
    fun wf ready => by
      rw [Completes, exec_of_seqOf wf rfl rfl]
      exact nop5CSeq_completes start ready⟩

/-! ### Halts -/

/-- Settles O32: WAI and STP are the halt sequence, each with its own run state. -/
theorem haltsComplete : Obligations.HaltsComplete := by
  intro s start tr run ready
  have halts {i : Instr} {m : CpuMode} (sequence : exec i s = runSeq (haltSeq m) s) : run i m := by
    obtain ⟨t, runs, completed, regs, ram⟩ := haltSeq_completes (m := m) start ready
    exact ⟨t, sequence.trans runs, completed, regs, ram⟩
  exact ⟨halts (exec_of_seqOf rfl rfl rfl s), halts (exec_of_seqOf rfl rfl rfl s)⟩

end Sys2Proof.Machine
end

section
/-! The event queue settled (O51): a push is a permutation, what a pop answers is among the events of the least tick,
and a cancel is a filter on the kind. -/

namespace Sys2Proof.Machine

/-- A push adds the event and loses none, wherever it is put (50_event_queue R502). -/
theorem push_perm (e : Event) (q : List Event) : List.Perm (push e q) (e :: q) := by
  induction q with
  | nil => exact .refl _
  | cons f q ih =>
    unfold push
    split
    · exact .refl _
    · exact (ih.cons f).trans (.swap e f q)

/-- There is an event to pop exactly when some entry is not the sentinel. -/
theorem earliestEvents_eq_nil {q : List Event} : earliestEvents q = [] ↔ ∀ e ∈ q, e.kind = .none := by
  rw [← peek_none, List.eq_nil_iff_forall_not_mem]
  constructor
  · intro empty
    cases earliest : peekEarliestTick q with
    | none => rfl
    | some t =>
      obtain ⟨⟨e, mem, live, rfl⟩, -⟩ := peek_some earliest
      exact absurd (mem_earliestEvents.2 ⟨mem, live, earliest⟩) (empty e)
  · intro none e mem
    obtain ⟨-, -, some⟩ := mem_earliestEvents.1 mem
    simp [none] at some

/-- No event comes before an earliest one (50_event_queue R503). -/
theorem tick_le_of_mem_earliestEvents {q : List Event} {x e : Event} (earliest : x ∈ earliestEvents q) (mem : e ∈ q)
    (live : e.kind ≠ .none) : x.tick ≤ e.tick :=
  (peek_some (mem_earliestEvents.1 earliest).2.2).2 e mem live

/-- With nothing to pop, a pop answers the sentinel and takes out nothing (50_event_queue R504). -/
theorem popEarliest_of_no_live (ties : Nat) {q : List Event} (empty : ∀ e ∈ q, e.kind = .none) :
    popEarliest ties q = (Event.sentinel, q, ties) := by
  rcases popEarliest_cases ties q with ⟨-, popped⟩ | ⟨x, _, earliest, -⟩
  · exact popped
  · rw [earliestEvents_eq_nil.2 empty] at earliest
    cases earliest

/-- With something to pop, a pop takes out an earliest event, whichever the tie order picks (50_event_queue R504). -/
theorem popEarliest_of_live (ties : Nat) {q : List Event} (pending : ∃ e ∈ q, e.kind ≠ .none) :
    (popEarliest ties q).1 ∈ earliestEvents q ∧
      (popEarliest ties q).2.1 = q.erase (popEarliest ties q).1 := by
  rcases popEarliest_cases ties q with ⟨empty, -⟩ | ⟨x, _, earliest, popped⟩
  · obtain ⟨e, mem, live⟩ := pending
    exact absurd (earliestEvents_eq_nil.1 empty e mem) live
  · rw [popped]
    exact ⟨earliest, rfl⟩

/-- A pop leaves only events that were in the queue. -/
theorem popEarliest_rest_sublist (ties : Nat) (q : List Event) : (popEarliest ties q).2.1.Sublist q := by
  rcases popEarliest_cases ties q with ⟨-, popped⟩ | ⟨x, _, -, popped⟩ <;> rw [popped]
  exact List.erase_sublist

/-- Two pops with no push between come in order: the second takes what the first could have taken
(50_event_queue R508). -/
theorem popEarliest_tick_mono (ties ties' : Nat) {q : List Event}
    (pending : ∃ e ∈ (popEarliest ties q).2.1, e.kind ≠ .none) :
    (popEarliest ties q).1.tick ≤ (popEarliest ties' (popEarliest ties q).2.1).1.tick := by
  have kept := (popEarliest_rest_sublist ties q).subset
  obtain ⟨second, live, -⟩ := mem_earliestEvents.1 (popEarliest_of_live ties' pending).1
  obtain ⟨first, -⟩ := popEarliest_of_live ties (pending.imp fun _ ⟨mem, live⟩ => ⟨kept mem, live⟩)
  exact tick_le_of_mem_earliestEvents first (kept second) live

/-- A cancel leaves every event of another kind, as often as it was there (50_event_queue R505). -/
theorem count_cancel {k : EventKind} {e : Event} (other : e.kind ≠ k) (q : List Event) :
    List.count e (cancel k q) = List.count e q :=
  List.count_filter (decide_eq_true other)

/-- Settles O51: each clause is the law of its operation; what a pop takes out is an earliest event of the queue. -/
theorem queuePopsInOrder : Obligations.QueuePopsInOrder := by
  intro q ties
  refine ⟨fun e => push_perm e q, fun pending => ?_, fun empty => ?_, fun pending ties' => ?_, fun k => ⟨?_, ?_⟩⟩
  · obtain ⟨earliest, rest⟩ := popEarliest_of_live ties pending
    obtain ⟨mem, live, -⟩ := mem_earliestEvents.1 earliest
    exact ⟨mem, live, rest ▸ List.perm_cons_erase mem, fun e => tick_le_of_mem_earliestEvents earliest⟩
  · rw [popEarliest_of_no_live ties empty]
    exact ⟨rfl, rfl⟩
  · exact popEarliest_tick_mono ties ties' pending
  · exact fun e mem => (mem_cancel.1 mem).2
  · exact fun e other => count_cancel other q

end Sys2Proof.Machine
end

section
/-! PROOFS. The borrow cascade: what a fire does to its unit, where its borrow goes, what the fires it leads to leave alone,
and that it ends (51_timers R520, R522, R523, R531 to R536). -/

namespace Sys2Proof.Machine

/-! ### Clocking and settling -/

namespace TimerUnit

variable {p : Params} {u : TimerUnit}

theorem gated_iff : u.gated p = true ↔ p.timerDoneGates = true ∧ u.done = true ∧ u.reloadEnabled = false := by
  simp [gated, and_assoc]

theorem linking_iff : u.linking = true ↔ u.clockDivider = 7 := beq_iff_eq

theorem selfClocked_iff : u.selfClocked p = true ↔ u.countEnabled = true ∧ u.clockDivider ≠ 7 ∧
    ¬(p.timerDoneGates = true ∧ u.done = true ∧ u.reloadEnabled = false) := by
  rw [← gated_iff, ne_eq, ← linking_iff]
  simp [selfClocked, and_assoc]

/-- A unit that is clocked is rescheduled, and yields the event of its next fire (51_timers R523). -/
theorem settle_of_selfClocked (clocked : u.selfClocked p = true) (n : Fin 12) (t : Tick) :
    u.settle p t = u.resched t ∧ (u.settle p t).event p n = [⟨.timer n.val, u.fireTick t⟩] := by
  have settled : u.settle p t = u.resched t := if_pos clocked
  have clocked' : (u.resched t).selfClocked p = true := clocked
  exact ⟨settled, by rw [settled, event, if_pos clocked']; rfl⟩

/-- A unit that is not clocked plans no fire and yields no event (51_timers R522). -/
theorem settle_of_idle (idle : ¬u.selfClocked p = true) (n : Fin 12) (t : Tick) :
    u.settle p t = { u with expectedFireTick := 0 } ∧ (u.settle p t).event p n = [] := by
  have settled : u.settle p t = { u with expectedFireTick := 0 } := if_neg idle
  have idle' : ¬TimerUnit.selfClocked p { u with expectedFireTick := 0 } = true := idle
  exact ⟨settled, by rw [settled, event, if_neg idle']⟩

/-- The unit after its fire, but for the plan of the next one: done and reloaded (51_timers R532). -/
def fired (u : TimerUnit) : TimerUnit :=
  { u with done := true, count := if u.reloadEnabled then u.backup else 0 }

end TimerUnit

/-! ### The successor and its borrow -/

/-- The successors are those of the table, and none is its own (51_timers R520). -/
theorem succTimer_of_mem_table : ∀ n m : Fin 12,
    (n.val, m.val) ∈ [(0, 2), (1, 3), (2, 4), (3, 5), (5, 7), (7, 8), (8, 9), (9, 10), (10, 11), (11, 1)] →
    succTimer n = some m ∧ m ≠ n := by decide

theorem borrowAccepted_iff {firing : List (Fin 12)} {m : Fin 12} {s : State} :
    borrowAccepted firing m s = true ↔ ((s.timer m).clockDivider = 7 ∧ (s.timer m).countEnabled = true ∧
      ¬(s.params.timerDoneGates = true ∧ (s.timer m).done = true ∧ (s.timer m).reloadEnabled = false)) ∧
      m ∉ firing := by
  rw [← TimerUnit.gated_iff, ← TimerUnit.linking_iff]
  simp [borrowAccepted, and_assoc]

/-- `borrowIn(m, t)` (51_timers R533). -/
def borrowIn (fuel : Nat) (firing : List (Fin 12)) (m : Fin 12) (t : Tick) (s : State) : Yield :=
  if borrowAccepted firing m s then
    if (s.timer m).count = 0 then fire fuel firing m t s
    else (s.setTimer m { s.timer m with count := (s.timer m).count - 1 }, [])
  else (s, [])

/-- Step 4 of a fire: the borrow to the successor, where there is one (51_timers R520, R532). -/
def borrowOut (fuel : Nat) (firing : List (Fin 12)) (n : Fin 12) (t : Tick) (s : State) : Yield :=
  match succTimer n with
  | none => (s, [])
  | some m => borrowIn fuel firing m t s

/-- A fire by its six steps (51_timers R532). -/
theorem fire_eq (fuel : Nat) (firing : List (Fin 12)) (n : Fin 12) (t : Tick) (s : State) :
    fire (fuel + 1) firing n t s =
      let own := fireOwn n t (fireMark n s)
      let borrowed := borrowOut fuel (n :: firing) n t own.1
      let reloaded := fireReload n t borrowed.1
      (reloaded.1, own.2 ++ borrowed.2 ++ reloaded.2) := by
  unfold borrowOut borrowIn
  rfl

theorem borrowIn_of_not_accepted {firing : List (Fin 12)} {m : Fin 12} {s : State}
    (refused : ¬borrowAccepted firing m s = true) (fuel : Nat) (t : Tick) : borrowIn fuel firing m t s = (s, []) :=
  if_neg refused

theorem borrowIn_of_count_ne {firing : List (Fin 12)} {m : Fin 12} {s : State}
    (accepted : borrowAccepted firing m s = true) (counts : (s.timer m).count ≠ 0) (fuel : Nat) (t : Tick) :
    borrowIn fuel firing m t s = (s.setTimer m { s.timer m with count := (s.timer m).count - 1 }, []) := by
  rw [borrowIn, if_pos accepted, if_neg counts]

theorem borrowIn_of_count_zero {firing : List (Fin 12)} {m : Fin 12} {s : State}
    (accepted : borrowAccepted firing m s = true) (empty : (s.timer m).count = 0) (fuel : Nat) (t : Tick) :
    borrowIn fuel firing m t s = fire fuel firing m t s := by
  rw [borrowIn, if_pos accepted, if_pos empty]

/-! ### What a cascade leaves alone -/

/-- What holds from one moment of a cascade to a later one, while the units `firing` fire: only the parts a fire may change
change, no latch bit is lost, and no borrow reaches a firing unit (51_timers R532 to R535). -/
structure CascadeKeeps (firing : List (Fin 12)) (s t : State) : Prop where
  frame : t = { s with
    timers := t.timers, audio := t.audio, display := t.display, irqLatch := t.irqLatch
    queue := t.queue, video := t.video }
  latch : ∀ i, s.irqLatch.getLsbD i = true → t.irqLatch.getLsbD i = true
  timer : ∀ n ∈ firing, t.timer n = s.timer n

namespace CascadeKeeps

variable {firing : List (Fin 12)} {n : Fin 12} {s t u : State}

theorem refl (firing : List (Fin 12)) (s : State) : CascadeKeeps firing s s := ⟨rfl, fun _ => id, fun _ _ => rfl⟩

theorem trans (h : CascadeKeeps firing s t) (h' : CascadeKeeps firing t u) : CascadeKeeps firing s u where
  frame := by rw [h'.frame, h.frame]
  latch i := h'.latch i ∘ h.latch i
  timer n mem := (h'.timer n mem).trans (h.timer n mem)

/-- With fewer units firing less is kept. -/
theorem tail (h : CascadeKeeps (n :: firing) s t) : CascadeKeeps firing s t :=
  { h with timer := fun m mem => h.timer m (List.mem_cons_of_mem n mem) }

theorem params (h : CascadeKeeps firing s t) : t.params = s.params := by rw [h.frame]

/-- A unit that is not firing may be changed. -/
theorem setTimer (idle : n ∉ firing) (v : TimerUnit) (s : State) : CascadeKeeps firing s (s.setTimer n v) where
  frame := rfl
  latch _ := id
  timer _ mem := timer_setTimer_ne _ _ (ne_of_mem_of_not_mem mem idle)

end CascadeKeeps

/-- Steps 1 and 2 of a fire are the done bit and then latch bits gained. -/
theorem fireMark_keeps (firing : List (Fin 12)) (n : Fin 12) (s : State) :
    CascadeKeeps firing (s.setTimer n { s.timer n with done := true }) (fireMark n s) := by
  unfold fireMark
  dsimp only
  split
  · exact ⟨rfl, fun i set => by rw [BitVec.getLsbD_or, set, Bool.true_or], fun _ _ => rfl⟩
  · exact .refl _ _

/-- An enabled interrupt gets its latch bit (51_timers R532 step 2). -/
theorem fireMark_latch {n : Fin 12} {s : State} (low : n.val < 8) (enabled : (s.timer n).interruptEnabled = true) :
    (fireMark n s).irqLatch.getLsbD n.val = true := by
  have gained : (fireMark n s).irqLatch = s.irqLatch ||| bitMask n.val := by
    rw [fireMark, if_pos ⟨low, enabled⟩]
    rfl
  simp [gained, bitMask, low]

/-- A unit's own action is one of the display or of a channel (51_timers R532 step 3). -/
theorem fireOwn_keeps (firing : List (Fin 12)) (n : Fin 12) (t : Tick) (s : State) :
    CascadeKeeps firing s (fireOwn n t s).1 := by
  unfold fireOwn
  split
  case h_1 =>
    unfold hblank hblankStart flush emitUpTo
    dsimp only
    split_ifs <;> exact ⟨rfl, fun _ => id, fun _ _ => rfl⟩
  case h_2 =>
    unfold vblank flush emitUpTo
    dsimp only
    split_ifs <;> exact ⟨rfl, fun _ => id, fun _ _ => rfl⟩
  case h_7 => exact .refl _ _
  all_goals exact ⟨rfl, fun _ => id, fun _ _ => rfl⟩

/-- A borrow keeps what the fire it may lead to keeps. -/
theorem borrowOut_keeps {fuel : Nat} {firing : List (Fin 12)} {t : Tick} {s : State}
    (cascade : ∀ m, m ∉ firing → CascadeKeeps firing s (fire fuel firing m t s).1) (n : Fin 12) :
    CascadeKeeps firing s (borrowOut fuel firing n t s).1 := by
  unfold borrowOut
  split
  case h_1 => exact .refl _ _
  case h_2 m _ =>
    by_cases accepted : borrowAccepted firing m s = true
    · obtain ⟨-, idle⟩ := borrowAccepted_iff.1 accepted
      by_cases empty : (s.timer m).count = 0
      · rw [borrowIn_of_count_zero accepted empty]
        exact cascade m idle
      · rw [borrowIn_of_count_ne accepted empty]
        exact .setTimer idle _ s
    · rw [borrowIn_of_not_accepted accepted]
      exact .refl _ _

/-- A fire changes no unit that fires already (51_timers R534). -/
theorem fire_keeps {fuel : Nat} {firing : List (Fin 12)} {n : Fin 12} (idle : n ∉ firing) (t : Tick) (s : State) :
    CascadeKeeps firing s (fire fuel firing n t s).1 := by
  induction fuel generalizing firing n s with
  | zero => exact .refl _ _
  | succ fuel ih =>
    rw [fire_eq]
    exact (CascadeKeeps.setTimer idle _ s).trans <| (fireMark_keeps _ n s).trans <| (fireOwn_keeps _ n t _).trans <|
      (borrowOut_keeps (fun _ idle => ih idle _) n).tail.trans (.setTimer idle _ _)

/-- From steps 1 and 2 of a fire up to its reload, the firing units keep what the marking left. -/
theorem borrowOut_fireOwn_keeps (fuel : Nat) (firing : List (Fin 12)) (n : Fin 12) (t : Tick) (s : State) :
    CascadeKeeps (n :: firing) (fireMark n s)
      (borrowOut fuel (n :: firing) n t (fireOwn n t (fireMark n s)).1).1 :=
  (fireOwn_keeps _ n t _).trans (borrowOut_keeps (fun _ idle => fire_keeps idle t _) n)

/-! ### A fire of a unit -/

/-- A fire reloads its own unit and settles its plan, whatever the cascade does beyond it (51_timers R532). -/
theorem fire_timer_self (fuel : Nat) (firing : List (Fin 12)) (n : Fin 12) (t : Tick) (s : State) :
    let w := (s.timer n).fired.settle s.params t
    (fire (fuel + 1) firing n t s).1.timer n = w ∧ ∀ e ∈ w.event s.params n, e ∈ (fire (fuel + 1) firing n t s).2 := by
  intro w
  have keeps := (fireMark_keeps (n :: firing) n s).trans (borrowOut_fireOwn_keeps fuel firing n t s)
  have marked := keeps.timer n List.mem_cons_self
  rw [timer_setTimer_same] at marked
  rw [fire_eq]
  unfold fireReload settleTimer
  dsimp only
  rw [timer_setTimer_same, keeps.params, marked]
  exact ⟨rfl, fun e mem => List.mem_append_right _ mem⟩

/-- A fire sets its unit's latch bit where the interrupt is enabled, and the cascade leaves it set. -/
theorem fire_latch {n : Fin 12} {s : State} (low : n.val < 8) (enabled : (s.timer n).interruptEnabled = true)
    (fuel : Nat) (firing : List (Fin 12)) (t : Tick) :
    (fire (fuel + 1) firing n t s).1.irqLatch.getLsbD n.val = true := by
  rw [fire_eq]
  exact (borrowOut_fireOwn_keeps fuel firing n t s).latch n.val (fireMark_latch low enabled)

/-- Before its borrow a fire has changed no other unit. -/
theorem timer_fireOwn_fireMark {n m : Fin 12} (other : m ≠ n) (t : Tick) (s : State) :
    (fireOwn n t (fireMark n s)).1.timer m = s.timer m := by
  have keeps := (fireMark_keeps [m] n s).trans (fireOwn_keeps [m] n t _)
  rw [keeps.timer m List.mem_cons_self, timer_setTimer_ne _ _ other]

/-- What a fire does to another unit is what its borrow does. -/
theorem fire_timer_other {n m : Fin 12} (other : m ≠ n) (fuel : Nat) (firing : List (Fin 12)) (t : Tick) (s : State) :
    (fire (fuel + 1) firing n t s).1.timer m =
      (borrowOut fuel (n :: firing) n t (fireOwn n t (fireMark n s)).1).1.timer m := by
  rw [fire_eq]
  exact timer_setTimer_ne _ _ other

/-- A stale event does nothing (51_timers R531). -/
theorem fireAction_of_stale {n : Fin 12} {t : Tick} {s : State}
    (stale : t ≠ (s.timer n).expectedFireTick ∨ (s.timer n).expectedFireTick = 0) : fireAction n t s = (s, []) :=
  if_pos stale

/-- A live event fires its unit (51_timers R531). -/
theorem fireAction_of_live {n : Fin 12} {t : Tick} {s : State} (live : t = (s.timer n).expectedFireTick)
    (planned : t ≠ 0) : fireAction n t s = fire 12 [] n t s :=
  if_neg (not_or.2 ⟨not_not.2 live, live ▸ planned⟩)

/-- Settles O44: `fire_timer_self` gives the unit after its fire, which is clocked unless done gates it. -/
theorem timerFireReloads : Obligations.TimerFireReloads := by
  intro n t s u y w fires reloads
  refine ⟨fireAction_of_stale, fun live planned counts divided => ?_⟩
  have fire : y = fire 12 [] n t s := fireAction_of_live live planned
  obtain ⟨unit, yielded⟩ := fire_timer_self 11 [] n t s
  rw [← fire] at unit yielded
  have goesOn (ungated : ¬(s.params.timerDoneGates = true ∧ u.reloadEnabled = false)) : reloads u.fired.count := by
    have clocked : u.fired.selfClocked s.params = true :=
      TimerUnit.selfClocked_iff.2 ⟨counts, divided, fun ⟨gates, _, oneShot⟩ => ungated ⟨gates, oneShot⟩⟩
    obtain ⟨settled, event⟩ := TimerUnit.settle_of_selfClocked clocked n t
    exact ⟨unit.trans settled, yielded _ (by rw [event]; exact List.mem_cons_self)⟩
  refine ⟨fun low enabled => fire ▸ fire_latch low enabled 11 [] t, fun reload => ?_, fun oneShot gates => ?_,
    fun oneShot gates => ?_⟩
  · have count : u.fired.count = u.backup := if_pos reload
    exact count ▸ goesOn (by simp [reload])
  · have count : u.fired.count = 0 := if_neg (by simp [oneShot])
    exact count ▸ goesOn (by simp [gates])
  · have count : u.fired.count = 0 := if_neg (by simp [oneShot])
    have idle : ¬u.fired.selfClocked s.params = true := fun clocked =>
      (TimerUnit.selfClocked_iff.1 clocked).2.2 ⟨gates, rfl, oneShot⟩
    rw [← count]
    exact unit.trans (TimerUnit.settle_of_idle idle n t).1

/-- Settles O45: another unit's change is the borrow's (`fire_timer_other`), and the borrow is counted, fired on or
dropped by the successor alone. -/
theorem borrowReachesTheSuccessor : Obligations.BorrowReachesTheSuccessor := by
  intro n t s live planned y
  have fire : y = fire 12 [] n t s := fireAction_of_live live planned
  let own := (fireOwn n t (fireMark n s)).1
  have ownParams : own.params = s.params :=
    ((fireMark_keeps [] n s).trans (fireOwn_keeps [] n t _)).params
  have ownTimer {k : Fin 12} (other : k ≠ n) : own.timer k = s.timer k := timer_fireOwn_fireMark other t s
  have borrowed {k : Fin 12} (other : k ≠ n) : y.1.timer k = (borrowOut 11 [n] n t own).1.timer k :=
    fire ▸ fire_timer_other other 11 [] t s
  refine ⟨?_, fun last k other => ?_⟩
  · intro m table u accepts
    obtain ⟨succ, distinct⟩ := succTimer_of_mem_table n m table
    have out : borrowOut 11 [n] n t own = borrowIn 11 [n] m t own := by rw [borrowOut, succ]
    have unit : own.timer m = u := ownTimer distinct
    have accepted : borrowAccepted [n] m own = true ↔ accepts := by
      rw [borrowAccepted_iff, unit, ownParams]
      simp [accepts, distinct]
    refine ⟨fun accept counts => ?_, fun accept empty => ?_, fun refused k other => ?_⟩
    · have counted := borrowIn_of_count_ne (accepted.2 accept) (unit ▸ counts) 11 t
      rw [unit] at counted
      refine ⟨?_, fun k otherN otherM => ?_⟩
      · rw [borrowed distinct, out, counted, timer_setTimer_same]
      · rw [borrowed otherN, out, counted, timer_setTimer_ne _ _ otherM, ownTimer otherN]
    · have idle : ¬u.fired.selfClocked s.params = true := fun clocked =>
        (TimerUnit.selfClocked_iff.1 clocked).2.1 accept.1
      rw [borrowed distinct, out, borrowIn_of_count_zero (accepted.2 accept) (unit ▸ empty),
        (fire_timer_self 10 [n] m t own).1, unit, ownParams, (TimerUnit.settle_of_idle idle m t).1]
      rfl
    · rw [borrowed other, out, borrowIn_of_not_accepted (mt accepted.1 refused), ownTimer other]
  · have none : succTimer n = none := by rcases last with rfl | rfl <;> rfl
    rw [borrowed other, borrowOut, none, ownTimer other]

/-! ### The cascade ends -/

/-- Two fuels that give the same fires give the same borrow. -/
theorem borrowOut_congr {fuel fuel' : Nat} {firing : List (Fin 12)} {t : Tick} {s : State}
    (same : ∀ m, m ∉ firing → fire fuel' firing m t s = fire fuel firing m t s) (n : Fin 12) :
    borrowOut fuel' firing n t s = borrowOut fuel firing n t s := by
  unfold borrowOut
  split
  case h_1 => rfl
  case h_2 m _ =>
    by_cases fires : m ∈ firing
    · have dropped : ¬borrowAccepted firing m s = true := fun accepted => (borrowAccepted_iff.1 accepted).2 fires
      rw [borrowIn_of_not_accepted dropped, borrowIn_of_not_accepted dropped]
    · rw [borrowIn, borrowIn, same m fires]

/-- Fuel for as many fires as there are units not yet firing is enough: every unit fires at most once
(51_timers R534). -/
theorem fire_add_fuel {fuel : Nat} {firing : List (Fin 12)} {n : Fin 12} (once : (n :: firing).Nodup)
    (enough : 12 ≤ firing.length + fuel) (k : Nat) (t : Tick) (s : State) :
    fire (fuel + k) firing n t s = fire fuel firing n t s := by
  induction fuel generalizing firing n s with
  | zero =>
    have few := once.length_le_card
    rw [Fintype.card_fin, List.length_cons] at few
    omega
  | succ fuel ih =>
    have borrow := borrowOut_congr (t := t) (s := (fireOwn n t (fireMark n s)).1) (fuel := fuel) (fuel' := fuel + k)
      (fun m idle => ih (List.nodup_cons.2 ⟨idle, once⟩) (by rw [List.length_cons]; omega) _) n
    rw [Nat.add_right_comm, fire_eq, fire_eq]
    dsimp only
    rw [borrow]

/-- Settles O46: `fire_add_fuel` from the start of a cascade, and the frame of `fire_keeps`. -/
theorem cascadeEnds : Obligations.CascadeEnds := by
  intro n t s
  refine ⟨fun k => fire_add_fuel (List.nodup_singleton n) (Nat.le_refl 12) k t s, ?_⟩
  unfold fireAction
  split
  · rfl
  · exact (fire_keeps List.not_mem_nil t s).frame

end Sys2Proof.Machine
end

section
/-! PROOFS. Count and control writes: the registers of a unit, what they read, the plan an update leaves, and the count
read down until it fires (51_timers R521 to R530, 52_audio R578 to R580). -/

namespace Sys2Proof.Machine

/-! ### Fields of a byte as numbers -/

theorem toNat_append_eq_add {m k : Nat} (x : BitVec m) (y : BitVec k) :
    (x ++ y).toNat = x.toNat * 2 ^ k + y.toNat := by
  rw [BitVec.toNat_append, ← Nat.shiftLeft_add_eq_or_of_lt y.isLt, Nat.shiftLeft_eq]

theorem toNat_extractLsb'_eq_div {m : Nat} (x : BitVec m) (start len : Nat) :
    (x.extractLsb' start len).toNat = x.toNat / 2 ^ start % 2 ^ len := by
  rw [BitVec.extractLsb'_toNat, Nat.shiftRight_eq_div_pow]

/-- What a CTLA read and a CONTROL read have in common: the low five bits (51_timers R528, 52_audio R578). -/
theorem TimerUnit.toNat_controlBits {m : Nat} (u : TimerUnit) (high : BitVec m) :
    (high ++ BitVec.ofBool u.reloadEnabled ++ BitVec.ofBool u.countEnabled ++ u.clockDivider).toNat =
      32 * high.toNat + (16 * u.reloadEnabled.toNat + 8 * u.countEnabled.toNat + u.clockDivider.toNat) := by
  simp only [toNat_append_eq_add, BitVec.toNat_ofBool]
  omega

/-- A CTLA read (51_timers R528). -/
theorem TimerUnit.toNat_controlA (u : TimerUnit) : u.controlA.toNat = 128 * u.interruptEnabled.toNat +
    (16 * u.reloadEnabled.toNat + 8 * u.countEnabled.toNat + u.clockDivider.toNat) := by
  refine (u.toNat_controlBits (BitVec.ofBool u.interruptEnabled ++ 0#2)).trans ?_
  rw [toNat_append_eq_add, BitVec.toNat_ofBool, BitVec.toNat_ofNat]
  omega

/-- A CTLB read (51_timers R530). -/
theorem TimerUnit.toNat_controlB (u : TimerUnit) (n : Fin 12) (t : Tick) :
    (u.controlB n t).toNat = 8 * u.done.toNat + (Config.ctlbLow n.val t).toNat := by
  refine (toNat_append_eq_add (0#4 ++ BitVec.ofBool u.done) (Config.ctlbLow n.val t)).trans ?_
  rw [toNat_append_eq_add, BitVec.toNat_ofBool, BitVec.toNat_ofNat]
  omega

/-- A CONTROL read (52_audio R578). -/
theorem toNat_audControlValue (ch : AudioChannel) (u : TimerUnit) : (chipValue.audControlValue ch u).toNat =
    128 * (ch.tapMask.getLsbD 7).toNat + 32 * ch.integrateEnabled.toNat +
      (16 * u.reloadEnabled.toNat + 8 * u.countEnabled.toNat + u.clockDivider.toNat) := by
  refine (u.toNat_controlBits (ch.tapMask.extractLsb' 7 1 ++ 0#1 ++ BitVec.ofBool ch.integrateEnabled)).trans ?_
  have tap : (ch.tapMask.getLsbD 7).toNat = ch.tapMask.toNat / 2 ^ 7 % 2 := Nat.toNat_testBit ..
  simp only [toNat_append_eq_add, toNat_extractLsb'_eq_div, tap, BitVec.toNat_ofBool, BitVec.toNat_ofNat]
  omega

/-- An OTHER read (52_audio R580). -/
theorem toNat_audOtherValue (n : Fin 4) (t : Tick) (ch : AudioChannel) (u : TimerUnit) :
    (chipValue.audOtherValue n t ch u).toNat =
      ch.shift.toNat / 256 * 16 + 8 * u.done.toNat + (Config.ctlbLow (audioUnit n).val t).toNat := by
  refine (toNat_append_eq_add (ch.shift.extractLsb' 8 4 ++ BitVec.ofBool u.done) (Config.ctlbLow _ t)).trans ?_
  rw [toNat_append_eq_add, toNat_extractLsb'_eq_div, BitVec.toNat_ofBool]
  have bound := ch.shift.isLt
  omega

/-- The channel's part of a CONTROL write changes tap 7 of the mask (52_audio R578). -/
theorem AudioChannel.getLsbD_tapMask_setControl (v : Byte) (ch : AudioChannel) (i : Nat) :
    (ch.setControl v).tapMask.getLsbD i = if i = 7 then v.getLsbD 7 else ch.tapMask.getLsbD i := by
  have bit : (ch.setControl v).tapMask.getLsbD i = BitVec.getLsbD
      (ch.tapMask.extractLsb' 8 4 ++ v.extractLsb' 7 1 ++ ch.tapMask.extractLsb' 0 7) i := rfl
  simp only [bit, BitVec.getLsbD_append, BitVec.getLsbD_extractLsb']
  rcases Nat.lt_trichotomy i 7 with low | tap | high
  · simp [low, low.ne]
  · simp [tap]
  · have beyond : 8 + (i - 7 - 1) = i := by omega
    simp only [beyond, if_neg high.not_gt, if_neg high.ne', if_neg (show ¬i - 7 < 1 by omega)]
    by_cases bound : i < 12
    · simp [show i - 7 - 1 < 4 by omega]
    · simp [show ¬i - 7 - 1 < 4 by omega, BitVec.getLsbD_of_ge ch.tapMask i (by omega)]

/-- The channel's part of an OTHER write sets the four high bits of the shift register (52_audio R580). -/
theorem AudioChannel.toNat_shift_setShiftHigh (v : Byte) (ch : AudioChannel) :
    (ch.setShiftHigh v).shift.toNat = v.toNat / 16 * 256 + ch.shift.toNat % 256 := by
  refine (toNat_append_eq_add (v.extractLsb' 4 4) (ch.shift.extractLsb' 0 8)).trans ?_
  rw [toNat_extractLsb'_eq_div, toNat_extractLsb'_eq_div]
  have bound := v.isLt
  omega

/-! ### The registers of a unit -/

theorem chipReg_timer : ∀ n : Fin 8, let reg (k : Nat) : Addr := BitVec.ofNat 16 (0xFD00 + 4 * n.val + k)
    chipReg (reg 1) = .timCtlA n ∧ chipReg (reg 2) = .timCnt n ∧ chipReg (reg 3) = .timCtlB n := by decide

theorem chipReg_audio : ∀ c : Fin 4, let reg (k : Nat) : Addr := BitVec.ofNat 16 (0xFD20 + 8 * c.val + k)
    chipReg (reg 5) = .audControl c ∧ chipReg (reg 6) = .audCounter c ∧ chipReg (reg 7) = .audOther c := by decide

/-- The writes to the registers of a timer group (54_controller_chip R630). -/
theorem chipWrite_timer (n : Fin 8) (t : Tick) (v : Byte) (s : State) :
    let reg (k : Nat) : Addr := BitVec.ofNat 16 (0xFD00 + 4 * n.val + k)
    chipWrite t (reg 1) v s = setControlA (timerUnit n) t v s ∧
      chipWrite t (reg 2) v s = setCount (timerUnit n) t v s ∧
      chipWrite t (reg 3) v s = setControlB (timerUnit n) t v s := by
  obtain ⟨controlA, count, controlB⟩ := chipReg_timer n
  refine ⟨?_, ?_, ?_⟩ <;> unfold chipWrite
  · rw [controlA]
  · rw [count]
  · rw [controlB]

/-- The reads of the registers of a timer group (54_controller_chip R630). -/
theorem chipValue_timer (n : Fin 8) (t : Tick) (s : State) :
    let reg (k : Nat) : Addr := BitVec.ofNat 16 (0xFD00 + 4 * n.val + k)
    chipValue t (reg 1) s = (s.timer (timerUnit n)).controlA ∧
      chipValue t (reg 2) s = (s.timer (timerUnit n)).curCount s.params t ∧
      chipValue t (reg 3) s = (s.timer (timerUnit n)).controlB (timerUnit n) t := by
  obtain ⟨controlA, count, controlB⟩ := chipReg_timer n
  refine ⟨?_, ?_, ?_⟩ <;> unfold chipValue
  · rw [controlA]
  · rw [count]
  · rw [controlB]

/-- The writes to the registers of a channel's unit (54_controller_chip R630). -/
theorem chipWrite_audio (c : Fin 4) (t : Tick) (v : Byte) (s : State) :
    let reg (k : Nat) : Addr := BitVec.ofNat 16 (0xFD20 + 8 * c.val + k)
    chipWrite t (reg 5) v s = audControlWrite c t v s ∧
      chipWrite t (reg 6) v s = setCount (audioUnit c) t v s ∧
      chipWrite t (reg 7) v s = audOtherWrite c t v s := by
  obtain ⟨control, counter, other⟩ := chipReg_audio c
  refine ⟨?_, ?_, ?_⟩ <;> unfold chipWrite
  · rw [control]
  · rw [counter]
  · rw [other]

/-- The reads of the registers of a channel's unit (54_controller_chip R630). -/
theorem chipValue_audio (c : Fin 4) (t : Tick) (s : State) :
    let reg (k : Nat) : Addr := BitVec.ofNat 16 (0xFD20 + 8 * c.val + k)
    chipValue t (reg 5) s = chipValue.audControlValue (s.audio.get c) (s.timer (audioUnit c)) ∧
      chipValue t (reg 6) s = (s.timer (audioUnit c)).curCount s.params t ∧
      chipValue t (reg 7) s = chipValue.audOtherValue c t (s.audio.get c) (s.timer (audioUnit c)) := by
  obtain ⟨control, counter, other⟩ := chipReg_audio c
  refine ⟨?_, ?_, ?_⟩ <;> unfold chipValue
  · rw [control]
  · rw [counter]
  · rw [other]

/-! ### The count and the plan -/

/-- The count of a clocked unit, from the tick of its next fire (51_timers R524). -/
theorem TimerUnit.toNat_curCount_of_selfClocked {p : Params} {u : TimerUnit} (clocked : u.selfClocked p = true)
    (t : Tick) : (u.curCount p t).toNat = if t.toNat < u.expectedFireTick.toNat then
      (u.expectedFireTick.toNat - t.toNat - 1) / clockPeriod u.clockDivider % 256 else 0 := by
  rw [curCount, if_pos clocked]
  by_cases before : t < u.expectedFireTick
  · rw [if_pos before, if_pos (BitVec.lt_def.1 before)]
    exact BitVec.toNat_ofNat ..
  · rw [if_neg before, if_neg (mt BitVec.lt_def.2 before)]
    rfl

/-- A unit that is not clocked keeps its stored count (51_timers R524). -/
theorem TimerUnit.curCount_of_idle {p : Params} {u : TimerUnit} (idle : ¬u.selfClocked p = true) (t : Tick) :
    u.curCount p t = u.count :=
  if_neg idle

/-- `j` whole periods and a part of one before the fire, `j` borrows are left. -/
theorem div_periods_left {period j e : Nat} (part : e < period) : ((j + 1) * period - e - 1) / period = j := by
  rw [Nat.succ_mul]
  exact Nat.div_eq_of_lt_le (by omega) (by rw [Nat.succ_mul]; omega)

/-- From its reschedule on the count reads down by one each period (51_timers R523, R524). -/
theorem TimerUnit.toNat_curCount_resched {p : Params} {u : TimerUnit} {t : Tick} (clocked : u.selfClocked p = true)
    (within : t.toNat + (u.count.toNat + 1) * clockPeriod u.clockDivider < 2 ^ 64) {k e : Nat}
    (passed : k ≤ u.count.toNat) (part : e < clockPeriod u.clockDivider) :
    ((u.resched t).curCount p (t + BitVec.ofNat 64 (k * clockPeriod u.clockDivider + e))).toNat =
      u.count.toNat - k := by
  obtain ⟨j, total⟩ := Nat.exists_eq_add_of_le passed
  have clocked' : (u.resched t).selfClocked p = true := clocked
  have byte := u.count.isLt
  have periods : (u.count.toNat + 1) * clockPeriod u.clockDivider =
      k * clockPeriod u.clockDivider + (j + 1) * clockPeriod u.clockDivider := by
    rw [total, ← Nat.add_mul, Nat.add_assoc]
  have last : clockPeriod u.clockDivider ≤ (j + 1) * clockPeriod u.clockDivider := Nat.le_mul_of_pos_left _ j.succ_pos
  have fires : (u.resched t).expectedFireTick.toNat =
      t.toNat + (u.count.toNat + 1) * clockPeriod u.clockDivider := by
    change (u.fireTick t).toNat = _
    rw [fireTick, BitVec.toNat_add, BitVec.toNat_ofNat]
    omega
  have reads : (t + BitVec.ofNat 64 (k * clockPeriod u.clockDivider + e)).toNat =
      t.toNat + (k * clockPeriod u.clockDivider + e) := by
    rw [BitVec.toNat_add, BitVec.toNat_ofNat]
    omega
  have left : t.toNat + (u.count.toNat + 1) * clockPeriod u.clockDivider -
      (t.toNat + (k * clockPeriod u.clockDivider + e)) = (j + 1) * clockPeriod u.clockDivider - e := by omega
  have divider : (u.resched t).clockDivider = u.clockDivider := rfl
  rw [toNat_curCount_of_selfClocked clocked', fires, reads, divider, if_pos (by omega), left, div_periods_left part]
  omega

theorem settleTimer_of_selfClocked {u : TimerUnit} {s : State} (clocked : u.selfClocked s.params = true) (n : Fin 12)
    (t : Tick) : settleTimer n t u s = (s.setTimer n (u.resched t), [⟨.timer n.val, u.fireTick t⟩]) := by
  obtain ⟨unit, event⟩ := TimerUnit.settle_of_selfClocked clocked n t
  exact Prod.ext (congrArg (s.setTimer n) unit) event

theorem settleTimer_of_idle {u : TimerUnit} {s : State} (idle : ¬u.selfClocked s.params = true) (n : Fin 12)
    (t : Tick) : settleTimer n t u s = (s.setTimer n { u with expectedFireTick := 0 }, []) := by
  obtain ⟨unit, event⟩ := TimerUnit.settle_of_idle idle n t
  exact Prod.ext (congrArg (s.setTimer n) unit) event

/-- A status write that leaves the clocking as it was leaves the plan untouched (51_timers R530). -/
theorem setControlB_of_keeps {n : Fin 12} {v : Byte} {s : State}
    (keeps : ((s.timer n).withControlB v).selfClocked s.params = (s.timer n).selfClocked s.params) (t : Tick) :
    setControlB n t v s = (s.setTimer n ((s.timer n).withControlB v), []) :=
  if_pos keeps

/-- A status write that changes the clocking is an update (51_timers R530). -/
theorem setControlB_of_changes {n : Fin 12} {v : Byte} {s : State}
    (changes : ¬((s.timer n).withControlB v).selfClocked s.params = (s.timer n).selfClocked s.params) (t : Tick) :
    setControlB n t v s =
      settleTimer n t (.withControlB v { s.timer n with count := (s.timer n).curCount s.params t }) s :=
  if_neg changes

/-- Settles O43: every register of a unit is a count write or an update, which settles the unit
(`settleTimer_of_selfClocked`, `settleTimer_of_idle`), or the status write, which does so where the clocking changes. -/
theorem countWritePlansTheFire : Obligations.CountWritePlansTheFire := by
  intro n t v s u period selfClocked plans u' controlled cleared status control
  have clocks (u : TimerUnit) : u.selfClocked s.params = true ↔ selfClocked u := TimerUnit.selfClocked_iff
  have settles (audio : Vector AudioChannel 4) (u : TimerUnit) :
      plans { s with audio := audio } u (settleTimer n t u { s with audio := audio }) := by
    by_cases clocked : u.selfClocked s.params = true
    · rw [settleTimer_of_selfClocked (s := { s with audio := audio }) clocked]
      refine ⟨fun m other => timer_setTimer_ne _ s other, rfl, fun _ => ⟨timer_setTimer_same .., rfl, ?_⟩,
        fun idle => absurd ((clocks u).1 clocked) idle⟩
      intro within k passed e part
      rw [timer_setTimer_same]
      exact TimerUnit.toNat_curCount_resched clocked within passed part
    · rw [settleTimer_of_idle (s := { s with audio := audio }) clocked]
      refine ⟨fun m other => timer_setTimer_ne _ s other, rfl, fun on => absurd ((clocks u).2 on) clocked,
        fun _ => ⟨timer_setTimer_same .., rfl, fun t' => ?_⟩⟩
      rw [timer_setTimer_same]
      exact TimerUnit.curCount_of_idle (u := { u with expectedFireTick := 0 }) clocked t'
  have clears (audio : Vector AudioChannel 4) :
      status { s with audio := audio } (setControlB n t v { s with audio := audio }) := by
    have same : (u.withControlB v).selfClocked s.params = u.selfClocked s.params ↔
        (selfClocked (cleared u) ↔ selfClocked u) := by
      rw [Bool.eq_iff_iff, clocks, clocks]
      rfl
    refine ⟨fun keeps => ?_, fun changes => ?_⟩
    · rw [setControlB_of_keeps (s := { s with audio := audio }) (same.2 keeps)]
      exact ⟨rfl, rfl, fun m => timer_setTimer n m _ s⟩
    · rw [setControlB_of_changes (s := { s with audio := audio }) (mt same.1 changes)]
      exact settles audio (cleared u')
  refine ⟨fun on => TimerUnit.toNat_curCount_of_selfClocked ((clocks u).2 on) t,
    fun idle => TimerUnit.curCount_of_idle (mt (clocks u).1 idle) t, fun low => ?_, fun c high => ?_⟩
  · obtain ⟨controlA, count, controlB⟩ := chipWrite_timer ⟨n.val, low⟩ t v s
    obtain ⟨readA, readCount, readB⟩ := chipValue_timer ⟨n.val, low⟩ t s
    intro reg
    rw [controlA, count, controlB, readA, readCount, readB]
    exact ⟨settles s.audio _, settles s.audio _, clears s.audio, rfl, u.toNat_controlA, u.toNat_controlB n t⟩
  · obtain rfl : n = audioUnit c := Fin.ext high
    obtain ⟨writeControl, counter, other⟩ := chipWrite_audio c t v s
    obtain ⟨readControl, readCounter, readOther⟩ := chipValue_audio c t s
    intro reg ch
    rw [writeControl, counter, other, readControl, readCounter, readOther]
    exact ⟨settles s.audio _,
      ⟨ch.setControl v, rfl, ch.getLsbD_tapMask_setControl v, settles _ _⟩,
      ⟨ch.setShiftHigh v, rfl, ch.toNat_shift_setShiftHigh v, clears _⟩, rfl,
      toNat_audControlValue ch u, toNat_audOtherValue c t ch u⟩

end Sys2Proof.Machine
end

section
/-! PROOFS. The ControllerChip: which address is which register, the refused registers, storage registers, the interrupt
latch and the serial glue, and the palette (54_controller_chip R630 to R669, 53_display R606, R610). -/

namespace Sys2Proof.Machine

/-! ### The addresses of the chip -/

/-- The chip is page 0xFD, but where MAPCTL bit 1 maps it out (20_memory R102). -/
theorem route_eq_chip_iff {mapctl : Byte} {a : Addr} :
    route mapctl a = .chip ↔ mapctl.getLsbD 1 = false ∧ 0xFD00 ≤ a.toNat ∧ a.toNat ≤ 0xFDFF := by
  rw [routingTable mapctl a]
  dsimp only
  by_cases page : 0xFD00 ≤ a.toNat ∧ a.toNat ≤ 0xFDFF
  · rw [if_neg (by omega), if_neg (by omega), if_neg (by omega), if_neg (by omega), if_pos page.1]
    cases mapctl.getLsbD 1 <;> simp [page]
  · refine iff_of_false (fun chip => ?_) fun h => page h.2
    split_ifs at chip
    omega

/-- The chip's address at an offset of its page. -/
def chipAddr (o : Nat) : Addr := BitVec.ofNat 16 (0xFD00 + o)

theorem toNat_chipAddr (o : Fin 256) : (chipAddr o).toNat = 0xFD00 + o := by
  rw [chipAddr, BitVec.toNat_ofNat]
  omega

/-- Every address of page 0xFD is one of the chip's 256. -/
theorem exists_chipAddr {a : Addr} (low : 0xFD00 ≤ a.toNat) (high : a.toNat ≤ 0xFDFF) :
    ∃ o : Fin 256, a = chipAddr o := by
  refine ⟨⟨a.toNat - 0xFD00, by omega⟩, BitVec.eq_of_toNat_eq ?_⟩
  rw [toNat_chipAddr]
  dsimp only
  omega

/-! ### Refused registers -/

/-- The eleven registers of 54_controller_chip R668. -/
theorem chipReg_refused_iff : ∀ o : Fin 256, chipReg (chipAddr o) = .refused ↔ 0xFD00 + o.val ∈
    [0xFD84, 0xFD85, 0xFD86, 0xFD87, 0xFD88, 0xFD89, 0xFD90, 0xFD93, 0xFD9C, 0xFD9D, 0xFD9E] := by decide +kernel

theorem refusedAccess_iff {mapctl : Byte} {a : Addr} : refusedAccess mapctl a = true ↔
    mapctl.getLsbD 1 = false ∧ a.toNat ∈
      [0xFD84, 0xFD85, 0xFD86, 0xFD87, 0xFD88, 0xFD89, 0xFD90, 0xFD93, 0xFD9C, 0xFD9D, 0xFD9E] := by
  simp only [refusedAccess, Bool.and_eq_true, beq_iff_eq, route_eq_chip_iff]
  constructor
  · rintro ⟨⟨chip, low, high⟩, refused⟩
    obtain ⟨o, rfl⟩ := exists_chipAddr low high
    rw [toNat_chipAddr]
    exact ⟨chip, (chipReg_refused_iff o).1 refused⟩
  · rintro ⟨chip, mem⟩
    have page : 0xFD00 ≤ a.toNat ∧ a.toNat ≤ 0xFDFF := by
      simp only [List.mem_cons, List.not_mem_nil, or_false] at mem
      omega
    obtain ⟨o, rfl⟩ := exists_chipAddr page.1 page.2
    rw [toNat_chipAddr] at mem
    exact ⟨⟨chip, page⟩, (chipReg_refused_iff o).2 mem⟩

/-- A full sample buffer ends the run, and nothing else is changed (55_system R717). -/
theorem settle_eq (s : State) : s.settle = { s with runExit :=
    if s.runExit = none ∧ s.sampling.active = true ∧ s.sampling.idx = s.sampling.buf.length then some .audioFull
    else s.runExit } := by
  unfold State.settle
  split <;> rfl

/-- A bus cycle with no request outstanding before it (55_system R702). -/
theorem oneCycle_eq {q : Seq} {s : State} (answered : s.cpu.pendingReq = none) :
    oneCycle q s =
      if refusedAccess s.mapctl (q s.params s.cpu).req.addr then
        .next ((s.asking q).refuse (q s.params s.cpu).req.addr)
      else
        let r := resolve (q s.params s.cpu).req (s.asking q)
        let c := { r.2.cpu with pendingReq := none }
        .next (State.settle { r.2 with cpu := { (q r.2.params c).done r.1 c with pendingReq := none } }) := by
  unfold oneCycle Cpu.advance
  simp only [answered, Res.bind_next]
  split
  · rfl
  · simp only [Cpu.respond, resolve_pendingReq, Res.bind_next]
    rfl

/-- Settles O40: the refused accesses are those of `refusedAccess_iff`, and a bus cycle is `oneCycle_eq`. -/
theorem refusedRegistersStop : Obligations.RefusedRegistersStop := by
  intro q s answered req a refused asked
  rw [oneCycle_eq answered]
  refine ⟨fun isRefused => if_pos (refusedAccess_iff.2 isRefused), fun notRefused => ?_⟩
  rw [if_neg (mt refusedAccess_iff.1 notRefused)]
  exact congrArg Host.Outcome.next (settle_eq _)

/-! ### The display's emissions -/

/-- The call that emits the bytes of a line not yet emitted, up to byte `k`; none where there is no such byte
(53_display R601, R606, log 15). -/
def Display.emission (d : Display) (k : Nat) : List VideoCall :=
  if d.emitted < k then [.emitScreenData ((d.lineBuf.take k).drop d.emitted)] else []

theorem emitUpTo_eq (k : Nat) (s : State) : emitUpTo k s = { s with
    video := s.video ++ s.display.emission k
    display := { s.display with emitted := max s.display.emitted k } } := by
  unfold emitUpTo Display.emission
  split
  case isTrue more =>
    rw [max_eq_right more.le]
    rfl
  case isFalse done =>
    rw [max_eq_left (not_lt.1 done), List.append_nil]

/-- A palette update emits up to its pixel column, and tells the sink (53_display R606). -/
theorem updatePalette_eq (t : Tick) (reg : Nat) (v : Byte) (s : State) : updatePalette t reg v s = { s with
    video := s.video ++ s.display.emission (s.paletteByte t) ++ [.updateColorReg reg v]
    display := { s.display with emitted := max s.display.emitted (s.paletteByte t) } } := by
  rw [updatePalette, emitUpTo_eq]
  rfl

/-! ### Storage registers -/

/-- The registers that hold what is written (54_controller_chip R658). -/
def ChipReg.stores : ChipReg → Bool
  | .timBkup _ | .audVol _ | .audFeedback _ | .audOutput _ | .audShift _ | .audBackup _ | .atten _ | .mpan | .mstereo
  | .iodir | .green _ | .bluered _ => true
  | _ => false

/-- The addresses of the storage registers (54_controller_chip R630). -/
theorem stores_chipReg : ∀ o : Fin 256, let n := 0xFD00 + o.val
    ((0xFD00 ≤ n ∧ n < 0xFD20 ∧ n % 4 = 0) ∨ (0xFD20 ≤ n ∧ n < 0xFD40 ∧ n % 8 < 5) ∨ (0xFD40 ≤ n ∧ n ≤ 0xFD44) ∨
      n = 0xFD50 ∨ n = 0xFD8A ∨ (0xFDA0 ≤ n ∧ n ≤ 0xFDBF)) → (chipReg (chipAddr o)).stores = true := by decide +kernel

/-- The unused addresses (54_controller_chip R669). -/
theorem unused_chipReg : ∀ o : Fin 256, let n := 0xFD00 + o.val
    ((0xFD45 ≤ n ∧ n ≤ 0xFD4F) ∨ (0xFD51 ≤ n ∧ n ≤ 0xFD7F) ∨ n = 0xFD82 ∨ n = 0xFD83 ∨ n = 0xFD8E ∨ n = 0xFD8F ∨
      (0xFD96 ≤ n ∧ n ≤ 0xFD9B) ∨ n = 0xFD9F ∨ (0xFDC0 ≤ n ∧ n ≤ 0xFDFF)) →
    chipReg (chipAddr o) = .unused := by decide +kernel

theorem chipReg_serdat_iff : ∀ o : Fin 256, chipReg (chipAddr o) = .serdat ↔ 0xFD00 + o.val = 0xFD8D := by
  decide +kernel

/-- FEEDBACK reads back all eight bits, which are those of the taps the channel has (52_audio R573). -/
theorem AudioChannel.feedback_setFeedback (v : Byte) (ch : AudioChannel) : (ch.setFeedback v).feedback = v := by
  have bound := v.isLt
  have taps : (ch.setFeedback v).tapMask.toNat =
      v.toNat / 64 * 1024 + ch.tapMask.toNat / 128 % 2 * 128 + v.toNat % 64 := by
    refine (toNat_append_eq_add _ _).trans ?_
    simp only [toNat_append_eq_add, toNat_extractLsb'_eq_div, BitVec.toNat_ofNat]
    omega
  have high : (ch.setFeedback v).tapMask.toNat / 2 ^ 10 = v.toNat / 64 := by omega
  have low : (ch.setFeedback v).tapMask.toNat / 2 ^ 0 % 2 ^ 6 = v.toNat % 64 := by omega
  refine BitVec.eq_of_toNat_eq ((toNat_append_eq_add _ _).trans ?_)
  rw [toNat_extractLsb'_eq_div, toNat_extractLsb'_eq_div, high, low]
  omega

/-- SHIFT reads back the low byte (52_audio R576). -/
theorem AudioChannel.shiftLow_setShiftLow (v : Byte) (ch : AudioChannel) :
    (ch.setShiftLow v).shift.extractLsb' 0 8 = v := by
  have bits : (ch.setShiftLow v).shift.toNat = ch.shift.toNat / 2 ^ 8 % 2 ^ 4 * 2 ^ 8 + v.toNat := by
    refine (toNat_append_eq_add _ _).trans ?_
    rw [toNat_extractLsb'_eq_div]
  refine BitVec.eq_of_toNat_eq ?_
  rw [toNat_extractLsb'_eq_div, bits]
  have bound := v.isLt
  omega

/-- A storage register reads back what was written, and its write yields no event (54_controller_chip R658). -/
theorem chipValue_chipWrite_of_stores {a : Addr} (stores : (chipReg a).stores = true) (s : State) (v : Byte)
    (t t' : Tick) : chipValue t' a (chipWrite t a v s).1 = v ∧ (chipWrite t a v s).2 = [] := by
  unfold chipValue chipWrite
  cases reg : chipReg a
  case timBkup | audBackup => simp [setBackup]
  case audVol | audOutput => simp [get_set_same]
  case audFeedback => simp [get_set_same, AudioChannel.feedback_setFeedback]
  case audShift => simp [get_set_same, AudioChannel.shiftLow_setShiftLow]
  case atten => simp [get_set_same]
  case mpan | mstereo | iodir => exact ⟨rfl, rfl⟩
  case green | bluered => simp [updatePalette_eq, get_set_same]
  all_goals
    rw [reg] at stores
    cases stores

/-- A read of any register but SERDAT changes nothing (54_controller_chip R631). -/
theorem chipReadEffect_of_ne {a : Addr} (other : chipReg a ≠ .serdat) (s : State) : chipReadEffect a s = s := by
  unfold chipReadEffect
  split
  case h_1 serdat => exact absurd serdat other
  case h_2 => rfl

theorem chipReadEffect_serdat {a : Addr} (serdat : chipReg a = .serdat) (s : State) :
    chipReadEffect a s = { s with serial := { s.serial with rxReady := false } } := by
  unfold chipReadEffect
  rw [serdat]
  rfl

/-- An IODAT read is the written bit of an output, and the input pin elsewhere (54_controller_chip R664). -/
theorem getLsbD_iodat (s : State) {i : Nat} (bit : i < 8) :
    s.iodat.getLsbD i = if s.ioDir.getLsbD i then s.ioDat.getLsbD i else s.ioIn.getLsbD i := by
  have ones : (0xFF : Byte).getLsbD i = true := by
    interval_cases i <;> rfl
  simp only [State.iodat, BitVec.getLsbD_or, BitVec.getLsbD_and, BitVec.getLsbD_xor, ones]
  cases s.ioDir.getLsbD i <;> simp

/-- The word of two bytes, as a number (20_memory R111). -/
theorem toNat_word (h l : Byte) : (word h l).toNat = 256 * h.toNat + l.toNat := by
  rw [word, toNat_append_eq_add]
  omega

theorem toNat_loByte (a : Addr) : (loByte a).toNat = a.toNat % 256 := by
  rw [loByte, toNat_extractLsb'_eq_div]
  omega

/-- What reads as NOISE (54_controller_chip R669, 53_display R607, R608). -/
theorem chipValue_noise {a : Addr} (reg : chipReg a ∈ [.unused, .cpusleep, .dispctl, .dispadrL, .dispadrH]) (t : Tick)
    (s : State) : chipValue t a s = Config.noise a := by
  unfold chipValue
  simp only [List.mem_cons, List.not_mem_nil, or_false] at reg
  rcases reg with reg | reg | reg | reg | reg <;> rw [reg]

/-- Settles O41: each clause is a register's law, at the addresses `stores_chipReg`, `unused_chipReg` and
`chipReg_serdat_iff` give it. -/
theorem storageRegistersReadBack : Obligations.StorageRegistersReadBack := by
  intro s a v t t' n storage unused
  have unusedReg (h : unused) : chipReg a = .unused := by
    obtain ⟨o, rfl⟩ := exists_chipAddr (a := a) (by omega) (by omega)
    exact unused_chipReg o (by simpa only [unused, n, toNat_chipAddr] using h)
  refine ⟨fun h => ?_, fun low high => ?_, ⟨rfl, fun i bit => getLsbD_iodat s bit⟩, rfl, rfl, fun h => ?_, fun h => ?_,
    fun h => ?_⟩
  · obtain ⟨o, rfl⟩ := exists_chipAddr (a := a) (by omega) (by omega)
    exact chipValue_chipWrite_of_stores (stores_chipReg o (by simpa only [storage, n, toNat_chipAddr] using h)) s v t t'
  · obtain ⟨o, rfl⟩ := exists_chipAddr low high
    have serdat := chipReg_serdat_iff o
    rw [← toNat_chipAddr] at serdat
    split
    case isTrue h => exact chipReadEffect_serdat (serdat.2 h) s
    case isFalse h => exact chipReadEffect_of_ne (mt serdat.1 h) s
  · cases h
    case false =>
      refine ⟨word (hiByte s.display.dispadr) v, rfl, ?_⟩
      rw [toNat_word, toNat_hiByte, Nat.mul_comm]
      rfl
    case true =>
      refine ⟨word v (loByte s.display.dispadr), rfl, ?_⟩
      rw [toNat_word, toNat_loByte]
      rfl
  · unfold chipWrite
    rw [unusedReg h]
  · refine chipValue_noise ?_ t s
    rcases h with h | h | h | h | h
    · simp [unusedReg h]
    · obtain rfl : a = 0xFD91 := BitVec.eq_of_toNat_eq h
      decide
    · obtain rfl : a = 0xFD92 := BitVec.eq_of_toNat_eq h
      decide
    · obtain rfl : a = 0xFD94 := BitVec.eq_of_toNat_eq h
      decide
    · obtain rfl : a = 0xFD95 := BitVec.eq_of_toNat_eq h
      decide

/-! ### The interrupt latch and the serial glue -/

/-- An idle transmitter makes the condition its two enable bits (54_controller_chip R660, R662). -/
theorem Serial.irqActive_of_idle {r : Serial} (idle : r.txBusy = false) :
    r.irqActive = (r.ctl.getLsbD 7 || (r.ctl.getLsbD 6 && r.rxReady)) := by
  simp [Serial.irqActive, Serial.txRdy, idle]

/-- The latch with bit 4 held while the serial condition is active (54_controller_chip R654). -/
theorem applySerialIrq_eq (s : State) : applySerialIrq s =
    { s with irqLatch := if s.serial.irqActive then s.irqLatch ||| 0x10 else s.irqLatch } := by
  unfold applySerialIrq
  split <;> rfl

/-- The interrupt line is high while any latch bit is set (54_controller_chip R650). -/
theorem irqLine_iff {s : State} : s.irqLine = true ↔ ∃ n, n < 8 ∧ s.irqLatch.getLsbD n = true := by
  simp only [State.irqLine, decide_eq_true_eq]
  constructor
  · intro set
    by_contra clear
    push Not at clear
    exact set (BitVec.eq_of_getLsbD_eq fun n bit => by simpa using clear n bit)
  · rintro ⟨n, -, bit⟩ zero
    simp [zero] at bit

/-- Settles O42: the writes hold bit 4 as `applySerialIrq_eq` says, the transmitter being idle. -/
theorem interruptLatchAndSerial : Obligations.InterruptLatchAndSerial := by
  intro s v t idle active held
  have glue (r : Serial) (same : r.txBusy = false ∧ r.rxReady = s.serial.rxReady) (latch : Byte) :
      applySerialIrq { s with serial := r, irqLatch := latch } =
        { s with serial := r, irqLatch := held r.ctl latch } := by
    rw [applySerialIrq_eq, Serial.irqActive_of_idle same.1, same.2]
  have complement : v ^^^ 0xFF = ~~~v := BitVec.xor_allOnes
  refine ⟨?_, rfl, rfl, rfl, rfl, rfl, ?_, ?_, rfl, rfl, irqLine_iff⟩
  · change (intrstWrite v s, _) = _
    rw [intrstWrite, complement]
    exact congrArg (·, _) (glue s.serial ⟨idle, rfl⟩ _)
  · exact congrArg (·, _) (glue { s.serial with ctl := v } ⟨idle, rfl⟩ s.irqLatch)
  · change s.serial.status = _
    rw [Serial.status, Serial.txRdy, idle]
    cases s.serial.rxReady <;> rfl

/-! ### Palette writes and vblanks -/

/-- The palette's registers: GREEN0 to 15, then BLUERED0 to 15 (54_controller_chip R630). -/
theorem chipReg_palette : ∀ i : Fin 32, chipReg (BitVec.ofNat 16 (0xFDA0 + i)) =
    if i.val < 16 then .green (Fin.ofNat 16 i) else .bluered (Fin.ofNat 16 (i - 16)) := by decide +kernel

/-- A palette write stores its byte and updates the sink (53_display R610). -/
theorem chipWrite_palette {i : Nat} (lt : i < 32) (t : Tick) (v : Byte) (s : State) :
    let a := BitVec.ofNat 16 (0xFDA0 + i)
    ∃ green bluered, (chipWrite t a v s).1 = updatePalette t i v { s with green := green, bluered := bluered } := by
  have reg := chipReg_palette ⟨i, lt⟩
  unfold chipWrite
  dsimp only at reg ⊢
  rw [reg]
  by_cases low : i < 16
  · have index : (Fin.ofNat 16 i).val = i := Nat.mod_eq_of_lt low
    rw [if_pos low]
    exact ⟨s.green.set (Fin.ofNat 16 i) v, s.bluered, congrArg (updatePalette t · v _) index⟩
  · have index : 16 + (Fin.ofNat 16 (i - 16)).val = i := by
      change 16 + (i - 16) % 16 = i
      omega
    rw [if_neg low]
    exact ⟨s.green, s.bluered.set (Fin.ofNat 16 (i - 16)) v, congrArg (updatePalette t · v _) index⟩

theorem stores_palette : ∀ i : Fin 32, (chipReg (BitVec.ofNat 16 (0xFDA0 + i))).stores = true := by decide +kernel

/-- A vblank emits what is left of the line, calls the new frame, and clears the row (53_display R601). -/
theorem vblank_eq (s : State) : vblank s = { s with
    video := s.video ++ s.display.emission s.display.lineBuf.length ++ [.newFrame]
    queue := cancel .displayDma s.queue
    display := { s.display with row := 0, lineBuf := [], beatsLeft := 0, emitted := 0 } } := by
  rw [vblank, flush, emitUpTo_eq]
  rfl

/-- What is left of a line is its bytes from the first not emitted on (53_display R601). -/
theorem Display.emission_rest (d : Display) : d.emission d.lineBuf.length =
    if d.emitted < d.lineBuf.length then [.emitScreenData (d.lineBuf.drop d.emitted)] else [] := by
  rw [Display.emission, List.take_length]

/-- Settles O50: a palette write is `updatePalette_eq` after its byte is stored, and the vblank is `vblank_eq`. -/
theorem paletteWritesAndVblank : Obligations.PaletteWritesAndVblank := by
  intro t s
  refine ⟨fun i v lt => ?_, ?_⟩
  · intro a y k
    obtain ⟨green, bluered, wrote⟩ := chipWrite_palette lt t v s
    refine ⟨(chipValue_chipWrite_of_stores (stores_palette ⟨i, lt⟩) s v t t).1, ?_, ?_⟩
    · rw [show y = _ from wrote, updatePalette_eq]
      rfl
    · rw [show y = _ from wrote, updatePalette_eq]
      rfl
  · rw [vblank_eq, Display.emission_rest]
    refine ⟨fun more => ?_, fun done => ?_, rfl, rfl, rfl, rfl⟩
    · rw [if_pos more, List.append_assoc]
      rfl
    · rw [if_neg (not_lt.2 done), List.append_nil]

end Sys2Proof.Machine
end

section
/-! PROOFS. The boundary: a RESET, an NMI or an IRQ taken, the break evaluation, and sleep and wake (60_exceptions R750
to R786, 55_system R704). -/

namespace Sys2Proof.Machine

/-! ### RESET, NMI and IRQ -/

/-- `s` at the first bus cycle of the RESET taken (60_exceptions R752, R754). -/
def State.resetting (s : State) : State :=
  { s.awakened with cpu := { s.awakened.cpu with opcode := .reset, pendReset := false } }

/-- A pending RESET wakes the CPU whatever its run state (60_exceptions R772). -/
theorem wakes_of_pendReset {c : Cpu} (pending : c.pendReset = true) (irq : Bool) : c.wakes irq = true := by
  unfold Cpu.wakes
  split
  · rfl
  · simp [pending]
  · simp [pending]
  · exact pending

/-- The step at a boundary with a RESET pending is its sequence, ahead of every other (60_exceptions R754). -/
theorem step_of_pendReset {s : State} {tr : List BusRecord} (boundary : s.cpu.cycle = 0)
    (unbroken : s.cpu.breakFound s.params = none) (pending : s.cpu.pendReset = true) (ready : Ready s tr) :
    step s = runSeq resetSeq s.resetting := by
  have choice : s.cpu.interruptChoice s.irqLine = some .reset := if_pos pending
  rw [step_boundary ready boundary, stepBoundary_answered ready.answered,
    boundary_interrupt unbroken (wakes_of_pendReset pending _) choice]
  rfl

/-- Settles O33: the boundary starts the RESET sequence, and `resetSeq_completes` runs it. -/
theorem resetSequenceTaken : Obligations.ResetSequenceTaken := by
  intro s boundary unbroken pending ready
  rw [step_of_pendReset boundary unbroken pending ready]
  exact resetSeq_completes (s := s.resetting) boundary (ready.of_same rfl rfl rfl rfl rfl rfl rfl rfl rfl)

/-- Settles O34: what memory reads as after the interrupt is what it reads as after the pushes of its entry. -/
theorem interruptTaken : Obligations.InterruptTaken := by
  intro nmi s takes vector sp tr ready u
  obtain ⟨t, steps, completed, regs, ram⟩ := interrupt_completes takes ready
  refine ⟨t, steps, completed, regs, ?_⟩
  rw [ram]
  exact entry_reads s s.cpu.pc false

/-! ### What no bus cycle does -/

/-- What every bus cycle keeps, a burst of them keeps. -/
theorem burst_keeps {P : State → Prop} {q : Seq} (cycle : ∀ {s t}, P s → oneCycle q s = .next t → P t) (n : Nat)
    {s t : State} (h : P s) (ran : burst q n s = .next t) : P t := by
  induction n generalizing s with
  | zero =>
    cases ran
    exact h
  | succ n ih =>
    unfold burst at ran
    split at ran
    · cases ran
      exact h
    split at ran
    · obtain ⟨u, first, rest⟩ := Res.bind_eq_next ran
      exact ih (cycle h first) rest
    · cases ran
      exact h

/-- What every bus cycle keeps, a sequence keeps. -/
theorem runSeq_keeps {P : State → Prop} {q : Seq} (cycle : ∀ {s t}, P s → oneCycle q s = .next t → P t) {s t : State}
    (h : P s) (ran : runSeq q s = .next t) : P t := by
  obtain ⟨u, first, rest⟩ := Res.bind_eq_next ran
  exact burst_keeps cycle 8 (cycle h first) rest

/-- The run has not ended in a break (55_system R717). -/
def State.Unbroken (s : State) : Prop := ∀ r, s.runExit ≠ some (.brk r)

theorem State.Unbroken.settle {s : State} (h : s.Unbroken) : s.settle.Unbroken := by
  unfold State.settle
  split
  · exact fun _ => nofun
  · exact h

theorem DeviceFrame.runExit {s t : State} (h : DeviceFrame s t) : t.runExit = s.runExit := by
  obtain ⟨_, _, h⟩ := h
  rw [h]

/-- No access ends the run: what can is decided before it and after it (55_system R703, R717). -/
theorem resolve_runExit (req : BusReq) (s : State) : (resolve req s).2.runExit = s.runExit := by
  obtain ⟨r, device, frame⟩ := access_frame req s
  have before : r.runExit = s.runExit := by rw [frame]
  exact device.runExit.trans before

/-- A bus cycle ends the run at a refused register or with a full buffer, and never in a break. -/
theorem oneCycle_unbroken {q : Seq} {s t : State} (h : s.Unbroken) (cycle : oneCycle q s = .next t) : t.Unbroken := by
  obtain ⟨-, cycle⟩ := oneCycle_inv cycle
  split at cycle
  · rw [cycle]
    exact fun _ => nofun
  · obtain ⟨u, v, c, resolved, -, cycle⟩ := cycle
    have exit : u.runExit = s.runExit := by
      have := resolve_runExit (q s.params s.cpu).req (s.asking q)
      rwa [resolved] at this
    rw [cycle]
    exact State.Unbroken.settle fun r => exit ▸ h r

theorem exec_unbroken {i : Instr} {s t : State} (h : s.Unbroken) (ran : exec i s = .next t) : t.Unbroken := by
  rw [exec_eq_runSeq (wf_of_exec_next ran)] at ran
  split at ran
  · cases ran
    exact h
  · exact runSeq_keeps oneCycle_unbroken h ran

theorem afterFetch_unbroken {s t : State} (h : s.Unbroken) (ran : afterFetch s = .next t) : t.Unbroken := by
  unfold afterFetch at ran
  split at ran
  · cases ran
    exact h
  split at ran
  · split at ran
    · exact exec_unbroken h ran
    · cases ran
      exact h
  · cases ran
    exact h

theorem idle_unbroken {s : State} (h : s.Unbroken) : (idle s).Unbroken := by
  unfold idle
  split
  · exact h
  · exact fun _ => nofun

/-- The boundary breaks only where the evaluation found a break (60_exceptions R780). -/
theorem breakFound_of_boundary {p : Params} {irq : Bool} {c d : Cpu} {r : BreakReason}
    (broke : c.boundary p irq = (.brk r, d)) : c.breakFound p = some r := by
  unfold Cpu.boundary Cpu.evalBreaks at broke
  cases found : c.breakFound p with
  | some r' =>
    rw [found] at broke
    cases broke
    rfl
  | none =>
    rw [found] at broke
    dsimp only at broke
    split at broke
    · split at broke <;> cases broke
    · cases broke

/-- Where no break is found the boundary's step ends in none. -/
theorem stepBoundary_unbroken {s t : State} (h : s.Unbroken) (unbroken : s.cpu.breakFound s.params = none)
    (ran : stepBoundary s = .next t) : t.Unbroken := by
  unfold stepBoundary at ran
  split at ran
  · cases ran
  split at ran
  case h_1 broke => cases unbroken.symm.trans (breakFound_of_boundary broke)
  case h_2 c _ =>
    cases ran
    exact (idle_unbroken (s := { s with cpu := c }) h).settle
  case h_3 k c _ => exact runSeq_keeps (s := { s with cpu := c }) oneCycle_unbroken h ran
  case h_4 c _ =>
    obtain ⟨u, fetched, rest⟩ := Res.bind_eq_next ran
    exact afterFetch_unbroken (oneCycle_unbroken (s := { s with cpu := c }) h fetched) rest

/-! ### The break evaluation -/

theorem Cpu.lastReturn_iff {c : Cpu} : c.lastReturn = true ↔ c.opcode = .instr 0x60 ∨ c.opcode = .instr 0x40 := by
  simp [Cpu.lastReturn]

theorem Cpu.lastEntry_iff {p : Params} {c : Cpu} : c.lastEntry p = true ↔
    c.opcode = .instr 0x20 ∨ c.opcode = .irq ∨ c.opcode = .nmi ∨
      (c.opcode = .instr 0x00 ∧ p.brkSoftIgnoreSig ≠ some c.data) := by
  simp [Cpu.lastEntry, Cpu.lastBreak, or_assoc]

theorem Cpu.condNext_iff {c : Cpu} : c.condNext = true ↔ c.brk.evalPending = true ∧ c.brk.next = true := by
  simp [Cpu.condNext]

theorem Cpu.condStepIn_iff {c : Cpu} : c.condStepIn = true ↔ c.brk.evalPending = true ∧ c.brk.stepIn = true := by
  simp [Cpu.condStepIn]

theorem Cpu.condStepOver_iff {p : Params} {c : Cpu} : c.condStepOver p = true ↔
    c.brk.evalPending = true ∧ c.brk.stepOver = true ∧
      if c.brk.stepDeep = true then c.lastReturn = true ∧ c.brk.stepSP.toNat ≤ c.sp.toNat
      else ¬c.lastEntry p = true := by
  simp only [Cpu.condStepOver, Bool.and_eq_true, and_assoc]
  cases c.brk.stepDeep <;> simp [BitVec.le_def]

theorem Cpu.condStepOut_iff {c : Cpu} : c.condStepOut = true ↔
    c.brk.evalPending = true ∧ c.brk.stepOut = true ∧ c.lastReturn = true ∧ c.brk.stepSP.toNat < c.sp.toNat := by
  simp [Cpu.condStepOut, BitVec.lt_def, and_assoc]

/-- A break found ends the run at the boundary, and nothing but the break control changes (60_exceptions R780). -/
theorem step_of_breakFound {s : State} {tr : List BusRecord} {r : BreakReason} (boundary : s.cpu.cycle = 0)
    (ready : Ready s tr) (found : s.cpu.breakFound s.params = some r) :
    (s.cpu.breakEvaluated s.params).reason = r ∧
      step s = .next { s with
        cpu := { s.cpu with brk := s.cpu.breakEvaluated s.params }, runExit := some (.brk r) } := by
  have broke : s.cpu.boundary s.params s.irqLine = (.brk r, { s.cpu with brk := s.cpu.breakEvaluated s.params }) := by
    rw [Cpu.boundary, Cpu.evalBreaks, found]
  refine ⟨?_, ?_⟩
  · simp [Cpu.breakEvaluated, found]
  · rw [step_boundary ready boundary, stepBoundary_answered ready.answered, broke]

/-- Settles O36: the break control after the boundary is `breakEvaluated`, each of whose flags is cleared by its own
condition, and `breakFound` takes the conditions in the order of R786. -/
theorem breaksStopTheRun : Obligations.BreaksStopTheRun := by
  intro s boundary ready b returned entered looked trap next stepIn stepOver stepOut
  have trapIff : s.cpu.condTrap = true ↔ trap := Iff.rfl
  have nextIff : s.cpu.condNext = true ↔ next := Cpu.condNext_iff
  have stepInIff : s.cpu.condStepIn = true ↔ stepIn := Cpu.condStepIn_iff
  have enteredIff : s.cpu.lastEntry s.params = true ↔ entered := Cpu.lastEntry_iff
  have stepOverIff : s.cpu.condStepOver s.params = true ↔ stepOver := by
    rw [Cpu.condStepOver_iff, Cpu.lastReturn_iff, enteredIff]
  have stepOutIff : s.cpu.condStepOut = true ↔ stepOut := by
    rw [Cpu.condStepOut_iff, Cpu.lastReturn_iff]
  have keptUnless {flag cond : Bool} {held : Prop} (h : cond = true ↔ held) :
      (flag && !cond) = true ↔ flag = true ∧ ¬held := by
    rw [← h]
    simp
  refine ⟨s.cpu.breakEvaluated s.params, ⟨Bool.and_not_self _, keptUnless nextIff, keptUnless stepInIff,
    keptUnless stepOverIff, keptUnless stepOutIff, rfl, rfl, ?_⟩, ?_⟩
  · simp only [Cpu.breakEvaluated, Bool.or_eq_true, Bool.and_eq_true, enteredIff, and_assoc]
    rfl
  intro fires
  have fire {r : BreakReason} (found : s.cpu.breakFound s.params = some r) : fires r :=
    step_of_breakFound boundary ready found
  simp only [Cpu.breakFound, trapIff, nextIff, stepInIff, stepOverIff, stepOutIff] at fire
  refine ⟨fun holds => fire ?_, fun noTrap holds => fire ?_, fun noTrap noNext holds => fire ?_,
    fun noTrap noNext noStepIn holds => fire ?_, fun noTrap noNext noStepIn noStepOver holds => fire ?_,
    fun noTrap noNext noStepIn noStepOver noStepOut => ?_⟩
  · rw [if_pos holds]
  · rw [if_neg noTrap, if_pos holds]
  · rw [if_neg noTrap, if_neg noNext, if_pos holds]
  · rw [if_neg noTrap, if_neg noNext, if_neg noStepIn, if_pos holds]
  · rw [if_neg noTrap, if_neg noNext, if_neg noStepIn, if_neg noStepOver, if_pos holds]
  · have unbroken : s.cpu.breakFound s.params = none := by
      simp only [Cpu.breakFound, trapIff, nextIff, stepInIff, stepOverIff, stepOutIff]
      rw [if_neg noTrap, if_neg noNext, if_neg noStepIn, if_neg noStepOver, if_neg noStepOut]
    refine ⟨by simp [Cpu.breakEvaluated, unbroken, b], rfl, fun t r ran => ?_⟩
    rw [step_boundary ready boundary] at ran
    exact stepBoundary_unbroken (fun _ => by simp [ready.running]) unbroken ran r

/-! ### Sleep and wake -/

/-- A write to CPUSLEEP makes the CPU Sleeping (60_exceptions R772). -/
theorem resolve_cpusleep {s : State} (chip : s.mapctl.getLsbD 1 = false)
    (noTrap : ∀ w, untrapped s.traps ⟨.write, 0xFD91, w⟩ = true) (v : Byte) :
    let t := (resolve (.write 0xFD91 v) s).2
    t = { s with
      cpu := { s.cpu with mode := .sleeping }, now := t.now, prevBus := t.prevBus, busLog := t.busLog } := by
  have routed : route s.mapctl 0xFD91 = .chip := route_eq_chip_iff.2 ⟨chip, by decide, by decide⟩
  obtain ⟨t, resolved, frame⟩ := resolve_untrapped_write v noTrap routed
  rw [resolved]
  exact frame

/-- A CPU that nothing wakes is asleep at its boundary (40_dispatch R202 step 2). -/
theorem boundary_asleep {p : Params} {irq : Bool} {c : Cpu} (unbroken : c.breakFound p = none)
    (asleep : c.wakes irq = false) (stopped : c.mode ≠ .running) :
    c.boundary p irq = (.asleep, { c with brk := c.breakEvaluated p }) := by
  have unwoken : Cpu.wakeCheck irq { c with brk := c.breakEvaluated p } = { c with brk := c.breakEvaluated p } :=
    if_neg (Bool.eq_false_iff.1 asleep)
  rw [Cpu.boundary, Cpu.evalBreaks, unbroken]
  simp only [unwoken, if_neg stopped]

/-- Without a full sample buffer nothing ends the run after a step (55_system R717). -/
theorem settle_of_unsampled {s : State} (h : ¬(s.sampling.active = true ∧ s.sampling.idx = s.sampling.buf.length)) :
    s.settle = s := if_neg fun full => h full.2

/-- Before the earliest event the idle CPU moves time to it (55_system R704). -/
theorem idle_of_peek {s : State} {e : Tick} (earliest : peekEarliestTick s.queue = some e) (later : s.now < e) :
    idle s = { s with now := e } := by
  rw [idle, earliest]
  dsimp only
  rw [if_pos (BitVec.le_of_lt later)]

/-- With no event the idle CPU ends the run STALLED (55_system R704). -/
theorem idle_of_empty {s : State} (empty : peekEarliestTick s.queue = none) :
    idle s = { s with runExit := some .stalled } := by
  rw [idle, empty]

/-- Three bytes decode, whatever they are: the first names the instruction (30_encoding R150, R182). -/
theorem decode_three (p : Params) (op b1 b2 : Byte) :
    ∃ d, decode p [op, b1, b2] = .ok d ∧ d.instr = decodeOpcode p op := by
  have few := (decodeOpcode p op).operandCount_le_two
  have decoded := decode_of_length (p := p) (op := op) (operands := [b1, b2].take (decodeOpcode p op).operandCount)
    (by simpa using few) ([b1, b2].drop (decodeOpcode p op).operandCount)
  rw [List.take_append_drop] at decoded
  exact ⟨_, decoded, rfl⟩

/-- Settles O37: the write is CPUSLEEP's; a CPU that does not wake idles; and the IRQ that wakes it is masked, so that
the step fetches. -/
theorem sleepAndWake : Obligations.SleepAndWake := by
  refine ⟨fun s v chip noTrap => resolve_cpusleep chip noTrap v, ?_⟩
  intro s boundary ready unbroken noReset noNmi u i
  refine ⟨fun asleep => ?_, fun awake line masked isPlain noTrap => ?_⟩
  · have unwoken : s.cpu.wakes s.irqLine = false ∧ s.cpu.mode ≠ .running := by
      rcases asleep with stopped | ⟨halted, quiet⟩
      · simp [Cpu.wakes, stopped, noReset]
      · refine ⟨?_, halted⟩
        unfold Cpu.wakes
        split <;> simp_all
    have steps : step s = .next (idle u).settle := by
      rw [step_boundary ready boundary, stepBoundary_answered ready.answered,
        boundary_asleep unbroken unwoken.1 unwoken.2]
    have unsampled : (idle u).settle = idle u := by
      refine settle_of_unsampled ?_
      have same : (idle u).sampling = s.sampling := by
        unfold idle
        split <;> rfl
      rw [same]
      exact ready.unsampled
    rw [steps, unsampled]
    exact ⟨fun e earliest => by rw [idle_of_peek (s := u) earliest (ready.undisturbed e earliest)],
      fun empty => by rw [idle_of_empty (s := u) empty]⟩
  · have fetches : AtFetch s :=
      ⟨boundary, unbroken, wakes_of_not_stopped awake (.inl line), noReset, noNmi, fun _ => masked⟩
    obtain ⟨d, decoded, instr⟩ :=
      decode_three s.params (s.byteAt s.cpu.pc) (s.byteAt (s.cpu.pc + 1)) (s.byteAt (s.cpu.pc + 2))
    obtain ⟨-, -, steps⟩ := stepRunsDecodedInstruction s d fetches ready isPlain noTrap decoded
    rw [instr] at steps
    exact ⟨rfl, steps⟩

end Sys2Proof.Machine
end

section
/-! PROOFS. A trigger of an audio channel and the LFSR's bits (52_audio R575, R582), and the row an hblank requests and
its beats fetch (53_display R602 to R605). -/

namespace Sys2Proof.Machine

/-! ### The trigger -/

/-- The exclusive or of bits is the parity of their number. -/
theorem foldl_xor_eq {α : Type} (f : α → Bool) (l : List α) (p : Bool) :
    l.foldl (fun p i => xor p (f i)) p = xor p (decide (l.countP f % 2 = 1)) := by
  induction l generalizing p with
  | nil => simp
  | cons x l ih =>
    rw [List.foldl_cons, ih, List.countP_cons, Bool.xor_assoc]
    congr 1
    rcases Nat.mod_two_eq_zero_or_one (l.countP f) with even | odd <;> cases f x <;> simp [Nat.add_mod, *]

/-- The new bit is the parity of the tapped bits, inverted by the parameter (52_audio R575). -/
theorem AudioChannel.newBit_eq (invert : Bool) (ch : AudioChannel) : ch.newBit invert =
    xor (decide (((List.range 12).countP fun i => ch.shift.getLsbD i && ch.tapMask.getLsbD i) % 2 = 1)) invert := by
  simp only [AudioChannel.newBit, parity12, foldl_xor_eq, Bool.false_xor, BitVec.getLsbD_and]

/-- The register doubles modulo 2^12, the new bit coming in below (52_audio R575 step 4). -/
theorem AudioChannel.toNat_shift_trigger (invert : Bool) (ch : AudioChannel) :
    (ch.trigger invert).shift.toNat = (2 * ch.shift.toNat + (ch.newBit invert).toNat) % 4096 := by
  have bit : ((BitVec.ofBool (ch.newBit invert)).setWidth 12).toNat = (ch.newBit invert).toNat := by
    cases ch.newBit invert <;> rfl
  have doubled : (ch.shift <<< 1).toNat = (ch.shift.toNat % 2048) <<< 1 := by
    rw [BitVec.toNat_shiftLeft, Nat.shiftLeft_eq, Nat.shiftLeft_eq]
    omega
  have small := (ch.newBit invert).toNat_lt
  rw [AudioChannel.trigger, BitVec.toNat_or, doubled, bit, ← Nat.shiftLeft_add_eq_or_of_lt small, Nat.shiftLeft_eq]
  omega

/-- A clamped integer is its signed byte (52_audio R575 step 5). -/
theorem toInt_clamp8 (x : Int) : (clamp8 x).toInt = max (-128) (min 127 x) :=
  BitVec.toInt_ofInt_eq_self (by decide) (by simp) (by simp)

/-- `neg8` negates, but for -128, whose negative no signed byte is (52_audio R575). -/
theorem AudioChannel.toInt_signedVolume (ch : AudioChannel) (nb : Bool) : (ch.signedVolume nb).toInt =
    if nb then ch.volume.toInt else if ch.volume = 0x80 then -128 else -ch.volume.toInt := by
  unfold AudioChannel.signedVolume
  cases nb
  case true => rfl
  case false =>
    by_cases least : ch.volume = 0x80
    · simp [least]
    · rw [if_neg least]
      exact BitVec.toInt_neg_of_ne_intMin least

/-- Settles O47: the parity is counted by `newBit_eq`, and the bytes are read as numbers. -/
theorem audioTriggerOutput : Obligations.AudioTriggerOutput := by
  intro invert ch r tapped nb v
  have bit : ch.newBit invert = nb := ch.newBit_eq invert
  have volume : (ch.signedVolume (ch.newBit invert)).toInt = v := by rw [ch.toInt_signedVolume, bit]
  refine ⟨bit, bit ▸ ch.toNat_shift_trigger invert, ?_, rfl, rfl, rfl⟩
  simp only [r, AudioChannel.trigger]
  split
  · rw [toInt_clamp8, volume]
  · exact volume

/-- Two channels with the same taps and shift register keep them the same, whatever their outputs (52_audio R582). -/
theorem AudioChannel.iterate_trigger_same (invert : Bool) {c c' : AudioChannel} (taps : c.tapMask = c'.tapMask)
    (shift : c.shift = c'.shift) (n : Nat) :
    ((AudioChannel.trigger invert)^[n] c).tapMask = ((AudioChannel.trigger invert)^[n] c').tapMask ∧
      ((AudioChannel.trigger invert)^[n] c).shift = ((AudioChannel.trigger invert)^[n] c').shift := by
  induction n with
  | zero => exact ⟨taps, shift⟩
  | succ n ih =>
    obtain ⟨taps, shift⟩ := ih
    simp only [Function.iterate_succ_apply', AudioChannel.trigger, AudioChannel.newBit, taps, shift, and_self]

/-- Settles O48: the bit of a trigger is `newBit` of taps and shift register, which `iterate_trigger_same` keeps the
same. -/
theorem lfsrBitsIgnoreTheOutput : Obligations.LfsrBitsIgnoreTheOutput := by
  intro invert c c' taps shift n
  refine List.map_congr_left fun k _ => ?_
  obtain ⟨taps, shift⟩ := AudioChannel.iterate_trigger_same invert taps shift k
  simp only [Function.iterate_succ_apply', AudioChannel.trigger, AudioChannel.newBit, taps, shift]

/-! ### The hblank -/

/-- The first three steps of an hblank: the rest of the line, the new row, and an empty line (53_display R602). -/
theorem hblankStart_eq (t : Tick) (s : State) : hblankStart t s = { s with
    video := s.video ++ s.display.emission s.display.lineBuf.length ++ [.newRow s.display.row]
    queue := cancel .displayDma s.queue
    display := { s.display with rowStartTick := t, lineBuf := [], emitted := 0 } } := by
  rw [hblankStart, flush, emitUpTo_eq]
  rfl

theorem rowHasDma_iff {s : State} : s.rowHasDma = true ↔
    s.display.dispctl.getLsbD 0 = true ∧ s.display.row < s.params.visibleRows := by
  simp [State.rowHasDma]

theorem rowHasDma_hblankStart (t : Tick) (s : State) : (hblankStart t s).rowHasDma = s.rowHasDma := by
  rw [hblankStart_eq]
  rfl

/-- With no DMA for the row an hblank requests nothing (53_display R602 step 4). -/
theorem hblank_of_no_dma {s : State} (off : ¬s.rowHasDma = true) (t : Tick) : (hblank t s).2 = [] := by
  rw [← rowHasDma_hblankStart t] at off
  simp only [hblank, if_neg off]

/-- What an hblank does on every row: it counts the row and sends the sink the line and the new row. -/
theorem hblank_common (t : Tick) (s : State) :
    (hblank t s).1.display.row = nextRow s.display.row ∧
    (hblank t s).1.video = s.video ++ s.display.emission s.display.lineBuf.length ++ [.newRow s.display.row] ∧
    (hblank t s).1.queue = cancel .displayDma s.queue := by
  unfold hblank
  simp only [hblankStart_eq]
  split <;> exact ⟨rfl, rfl, rfl⟩

/-! ### The beats -/

/-- `z` is `s` after `k` beats of the row at `start` (53_display R604, R605). -/
structure AfterBeats (s : State) (start : Addr) (k : Nat) (z : State) : Prop where
  params : z.params = s.params
  ram : z.ram = s.ram
  line : z.display.lineBuf = dmaBytes s.ram start (k * s.params.beatBytes)
  next : z.display.dmaAddr = start + BitVec.ofNat 16 (k * s.params.beatBytes)
  left : z.display.beatsLeft = s.params.dmaBeats - k
  now : z.now = (fun x => advanceTick x Config.dmaCpuCost)^[k] s.now

/-- With DMA for the row an hblank requests its first beat, and none has been made (53_display R602 step 4). -/
theorem hblank_of_dma {s : State} (on : s.rowHasDma = true) (t : Tick) :
    (hblank t s).2 = [⟨.displayDma, t + BitVec.ofNat 64 (Config.dmaStartOffset s.rowAddr)⟩] ∧
      AfterBeats s s.rowAddr 0 (hblank t s).1 := by
  rw [← rowHasDma_hblankStart t] at on
  have start : (hblankStart t s).rowAddr = s.rowAddr := by
    rw [hblankStart_eq]
    rfl
  unfold hblank
  dsimp only
  rw [if_pos on, start, hblankStart_eq]
  refine ⟨rfl, rfl, rfl, ?_, ?_, rfl, rfl⟩
  · rw [Nat.zero_mul]
    rfl
  · rw [Nat.zero_mul]
    exact (BitVec.add_zero _).symm

/-- Consecutive bytes are the first of them and then the rest. -/
theorem dmaBytes_append (ram : List Host.Cell) (a : Addr) (m n : Nat) :
    dmaBytes ram a (m + n) = dmaBytes ram a m ++ dmaBytes ram (a + BitVec.ofNat 16 m) n := by
  simp only [dmaBytes, List.range_add, List.map_append, List.map_map]
  congr 1
  refine List.map_congr_left fun i _ => ?_
  simp only [Function.comp_apply]
  rw [BitVec.add_assoc, BitVec.ofNat_add]

/-- A beat fetches its bytes and moves time by its cost (53_display R604, R605). -/
theorem AfterBeats.succ {s z : State} {start : Addr} {k : Nat} (h : AfterBeats s start k z)
    (more : k < s.params.dmaBeats) (t : Tick) : AfterBeats s start (k + 1) (displayDma t z).1 := by
  have beatsLeft : ¬z.display.beatsLeft = 0 := by
    rw [h.left]
    omega
  rw [displayDma, if_neg beatsLeft]
  refine ⟨h.params, h.ram, ?_, ?_, ?_, ?_⟩
  · change z.display.lineBuf ++ dmaBytes z.ram z.display.dmaAddr z.params.beatBytes = _
    rw [h.line, h.ram, h.next, h.params, Nat.succ_mul, dmaBytes_append]
  · change z.display.dmaAddr + BitVec.ofNat 16 z.params.beatBytes = _
    rw [h.next, h.params, Nat.succ_mul, BitVec.add_assoc, BitVec.ofNat_add]
  · change z.display.beatsLeft - 1 = _
    rw [h.left]
    omega
  · change advanceTick z.now Config.dmaCpuCost = _
    rw [h.now, Function.iterate_succ_apply']

/-- The beats of a row, one after another (53_display R604). -/
theorem AfterBeats.iterate {s z : State} {start : Addr} (h : AfterBeats s start 0 z) (t : Tick) {k : Nat}
    (enough : k ≤ s.params.dmaBeats) : AfterBeats s start k ((fun x => (displayDma t x).1)^[k] z) := by
  induction k with
  | zero => exact h
  | succ k ih =>
    rw [Function.iterate_succ_apply']
    exact (ih (by omega)).succ (by omega) t

/-- Every beat but the last requests the next, and past the last there is none (53_display R605). -/
theorem AfterBeats.requests {s z : State} {start : Addr} {k : Nat} (h : AfterBeats s start k z)
    (t : Tick) : (displayDma t z).2 = if k + 1 < s.params.dmaBeats then
      [⟨.displayDma, t + BitVec.ofNat 64 Config.dmaBeatSpacing⟩] else [] := by
  unfold displayDma
  split
  case isTrue spent =>
    rw [h.left] at spent
    rw [if_neg (by omega)]
  case isFalse =>
    have another : 0 < z.display.beatsLeft - 1 ↔ k + 1 < s.params.dmaBeats := by
      rw [h.left]
      omega
    exact if_congr another rfl rfl

/-- The beats make up the row: DMA_BEATS divides ROW_BYTES (53_display R603). -/
theorem Params.dmaBeats_mul_beatBytes (p : Params) : p.dmaBeats * p.beatBytes = p.rowBytes := by
  have divides : p.dmaBeats ∣ p.rowBytes := by
    unfold Params.dmaBeats
    split
    case isTrue raw => exact Nat.dvd_of_mod_eq_zero raw.2
    case isFalse => exact Nat.one_dvd _
  exact Nat.mul_div_cancel' divides

/-- Settles O49: an hblank requests the row by `hblank_of_dma`, and after `k` beats `AfterBeats` says what was
fetched. -/
theorem rowDmaFetchesTheRow : Obligations.RowDmaFetchesTheRow := by
  intro t s y start
  obtain ⟨row, video, queue⟩ := hblank_common t s
  rw [Display.emission_rest] at video
  refine ⟨fun enabled visible => ?_, fun off => hblank_of_no_dma (mt rowHasDma_iff.1 off) t, row, video, ?_⟩
  · obtain ⟨requests, beats⟩ := hblank_of_dma (rowHasDma_iff.2 ⟨enabled, visible⟩) t
    refine ⟨requests, fun at' k enough => ?_⟩
    have after := beats.iterate at' enough
    refine ⟨after.line, after.left, after.now, after.requests, fun last => ?_⟩
    subst last
    rw [after.line, dmaBytes, List.length_map, List.length_range, Params.dmaBeats_mul_beatBytes]
  · intro e mem
    rw [queue] at mem
    exact (mem_cancel.1 mem).2

end Sys2Proof.Machine
end

section
/-! PROOFS. The host's calls: `pulseReset`, `advanceAudio`, the entry to a run, the inputs, and the traps of an access
(55_system R708 to R717, 60_exceptions R757, 70_reset R801). -/

namespace Sys2Proof.Machine

/-! ### The reset window -/

/-- Settles O52: each clause is the case of `pulseReset`, of `handleEvent` or of `spriteMicroStep` it names. -/
theorem pulseResetAndDeferral : Obligations.PulseResetAndDeferral := by
  intro s asserted
  refine ⟨Nat.succ_pos _, fun busy => if_pos busy, fun idle window => ?_, fun idle closed => ?_, fun _ => rfl, rfl⟩
  · rw [pulseReset, idle, window]
    rfl
  · rw [pulseReset, idle, closed]
    rfl

/-! ### advanceAudio -/

/-- `advanceAudio` before its run's entry: an empty buffer and its first sample planned (55_system R709). -/
def State.sampleBegun (rate k : Nat) (s : State) : State :=
  { s with
    queue := if 0 < k then
      push ⟨.audioSample, s.now + BitVec.ofNat 64 (s.params.ticksPerSecond / rate)⟩ (cancel .audioSample s.queue)
    else cancel .audioSample s.queue
    sampling := ⟨true, List.replicate k 0, 0, rate, s.now⟩ }

theorem beginAdvanceAudio_eq {rate : Nat} (positive : rate ≠ 0) (k : Nat) (m : RunMode) (s : State) :
    beginAdvanceAudio rate k m s = .next (hostRun m (s.sampleBegun rate k)).settle := by
  have first : (0 + 1) * s.params.ticksPerSecond = s.params.ticksPerSecond := Nat.one_mul _
  rw [beginAdvanceAudio, if_neg positive]
  simp only [State.sampleTick, first, State.sampleBegun]
  split <;> rfl

/-- One sample event is planned, where there is a slot for it (55_system R709). -/
theorem countP_sampleBegun (rate k : Nat) (s : State) :
    List.countP (fun e => decide (e.kind = .audioSample)) (s.sampleBegun rate k).queue = min k 1 := by
  have cancelled : List.countP (fun e => decide (e.kind = .audioSample)) (cancel .audioSample s.queue) = 0 :=
    List.countP_eq_zero.2 fun e mem => by simpa using (mem_cancel.1 mem).2
  simp only [State.sampleBegun]
  split
  case isTrue slots =>
    rw [(push_perm _ _).countP_eq, List.countP_cons, cancelled, min_eq_right slots]
    rfl
  case isFalse empty => rw [cancelled, Nat.le_zero.1 (not_lt.1 empty), Nat.zero_min]

/-- The buffer at the end: the samples taken, and silence (55_system R711). -/
theorem getElem?_take_append_replicate {α : Type} {l : List α} {n : Nat} (x : α) (h : n ≤ l.length) {i : Nat}
    (lt : i < l.length) : (l.take n ++ List.replicate (l.length - n) x)[i]? = if i < n then l[i]? else some x := by
  have length : (l.take n).length = n := List.length_take_of_le h
  split
  case isTrue taken => rw [List.getElem?_append_left (by omega), List.getElem?_take_of_lt taken]
  case isFalse silent =>
    rw [List.getElem?_append_right (by omega), length, List.getElem?_replicate, if_pos (by omega)]

/-- Settles O53: the start is `sampleBegun`, the samples are the two cases of `audioSample`, and the end keeps the
samples taken. -/
theorem advanceAudioFillsTheBuffer : Obligations.AdvanceAudioFillsTheBuffer := by
  refine ⟨fun rate k m s positive => ?_, fun s room => if_pos room, fun s full => if_neg (not_lt.2 full),
    fun s h => ⟨?_, fun i lt => getElem?_take_append_replicate 0 h lt, fun e mem => (mem_cancel.1 mem).2⟩⟩
  · refine ⟨_, beginAdvanceAudio_eq positive k m s, ?_⟩
    rw [settle_eq]
    refine ⟨rfl, fun e mem kind => ?_, countP_sampleBegun rate k s, ?_⟩
    · have mem : e ∈ (s.sampleBegun rate k).queue := mem
      unfold State.sampleBegun at mem
      dsimp only at mem
      split at mem
      · rcases mem_push.1 mem with rfl | old
        · rfl
        · exact absurd kind (mem_cancel.1 old).2
      · exact absurd kind (mem_cancel.1 mem).2
    · refine if_congr ?_ rfl rfl
      change none = none ∧ true = true ∧ 0 = (List.replicate k (0 : Int)).length ↔ k = 0
      rw [List.length_replicate]
      simp [eq_comm]
  · change (s.sampling.buf.take s.sampling.idx ++ _).length = _
    rw [List.length_append, List.length_take, List.length_replicate]
    omega

/-! ### Traps -/

/-- One trap after another: each is given the value the one before it passed on (55_system R708). -/
def throughTraps (t : Tick) (a : Addr) (traps : List Trap) (r : Byte × Bool) : Byte × Bool :=
  traps.foldl (fun r x => ((Config.trapFn x.fn t a r.1).1, r.2 || (Config.trapFn x.fn t a r.1).2)) r

/-- An access passes its value through the traps of its kind and address, in their order (55_system R708). -/
theorem throughTraps_filter (k : BusKind) (t : Tick) (a : Addr) (traps : List Trap) (v : Byte) (b : Bool) :
    throughTraps t a (traps.filter fun x => x.onKind k && x.addrs.contains a) (v, b) =
      ((applyTraps k t a traps v).1, b || (applyTraps k t a traps v).2) := by
  unfold throughTraps
  induction traps generalizing v b with
  | nil => simp [applyTraps]
  | cons x traps ih =>
    cases on : x.onKind k && x.addrs.contains a <;>
      simp only [List.filter_cons, on, applyTraps, if_true, Bool.false_eq_true, if_false, List.foldl_cons, ih,
        Bool.or_assoc]

theorem applyTraps_eq (k : BusKind) (t : Tick) (a : Addr) (traps : List Trap) (v : Byte) :
    applyTraps k t a traps v =
      throughTraps t a (traps.filter fun x => x.onKind k && x.addrs.contains a) (v, false) := by
  rw [throughTraps_filter, Bool.false_or]

/-- A read of RAM passes its byte through the traps after it (55_system R708). -/
theorem resolve_ram_read {s : State} {req : BusReq} (read : req.kind ≠ .write) (ram : route s.mapctl req.addr = .ram) :
    let r := throughTraps s.now req.addr (s.traps.filter fun x => x.onKind req.kind && x.addrs.contains req.addr)
      (ramRead s.ram req.addr, false)
    let y := resolve req s
    (y.1 = r.1 ∧ y.2 = { s.trapBreak r.2 with
      ram := y.2.ram, now := y.2.now, prevBus := y.2.prevBus, busLog := y.2.busLog }) ∧ y.2.ram = s.ram := by
  have accessed : access req s =
      let r := applyTraps req.kind s.now req.addr s.traps (ramRead s.ram req.addr)
      (r.1, s.trapBreak r.2, []) := by
    cases req
    case write => exact absurd rfl read
    all_goals
      unfold access
      dsimp only
      rw [ram]
      rfl
  rw [resolve_eq, accessed, applyTraps_eq]
  exact ⟨⟨rfl, rfl⟩, rfl⟩

/-- A write to RAM passes its byte through the traps before it (55_system R708). -/
theorem resolve_ram_write {s : State} {a : Addr} (v : Byte) (ram : route s.mapctl a = .ram) :
    let r := throughTraps s.now a (s.traps.filter fun x => x.onWrite && x.addrs.contains a) (v, false)
    let y := resolve (.write a v) s
    (y.1 = r.1 ∧ y.2 = { s.trapBreak r.2 with
      ram := y.2.ram, now := y.2.now, prevBus := y.2.prevBus, busLog := y.2.busLog }) ∧
      y.2.ram = ramWrite s.ram a r.1 := by
  have accessed : access (.write a v) s =
      let r := applyTraps .write s.now a s.traps v
      (r.1, (s.trapBreak r.2).writeRam a r.1, []) := by
    unfold access
    dsimp only [BusReq.addr]
    rw [ram]
    rfl
  rw [resolve_eq, accessed, applyTraps_eq]
  exact ⟨⟨rfl, rfl⟩, rfl⟩

/-- Settles O54: the inputs by the cases of their definitions, the accesses by `resolve_ram_read` and
`resolve_ram_write`. -/
theorem hostInputsAndTraps : Obligations.HostInputsAndTraps := by
  intro s
  refine ⟨fun level => ?_, fun idle b => ?_, fun m => ?_, fun req ram => ?_⟩
  · unfold setNmi
    cases level <;> cases s.nmiIn <;> simp
  · have active : Serial.irqActive { s.serial with rxData := b, rxReady := true } =
        (s.serial.ctl.getLsbD 7 || s.serial.ctl.getLsbD 6) :=
      (Serial.irqActive_of_idle (r := { s.serial with rxData := b, rxReady := true }) idle).trans
        (congrArg _ (Bool.and_true _))
    rw [serialReceive, applySerialIrq_eq, active]
  · cases m <;> simp [hostRun, RunMode.flag, Cpu.arm]
  · cases req with
    | write a v =>
      obtain ⟨after, written⟩ := resolve_ram_write (a := a) v ram
      refine ⟨after, ?_⟩
      rw [written]
      exact ⟨ramRead_ramWrite_same .., fun b other => ramRead_ramWrite_ne _ _ other⟩
    | fetchOpcode | fetchOperand | read | discard => exact resolve_ram_read nofun ram

end Sys2Proof.Machine
end

section
/-! PROOFS. The step is a run of loop steps: the bus cycles it groups are loop steps of their own (log 1), and agents
take their turns in the loop's order (55_system R700 to R706). -/

namespace Sys2Proof.Machine

/-! ### The sequence a suspended CPU runs -/

/-- A suspended CPU of `s` goes on with the sequence `q`, which is no one-cycle no-op (40_dispatch R201). -/
def State.Runs (q : Seq) (s : State) : Prop :=
  match s.currentInstr with
  | some i => i.oneCycle = false ∧ seqOf i = q
  | none => interruptSeqOf s.cpu.opcode = q

/-- What is run depends on the opcode register and the parameters only. -/
theorem currentInstr_congr {s t : State} (opcode : t.cpu.opcode = s.cpu.opcode) (params : t.params = s.params) :
    t.currentInstr = s.currentInstr := by
  unfold State.currentInstr
  rw [opcode, params]

theorem State.Runs.congr {q : Seq} {s t : State} (h : s.Runs q) (opcode : t.cpu.opcode = s.cpu.opcode)
    (params : t.params = s.params) : t.Runs q := by
  unfold State.Runs at h ⊢
  rw [currentInstr_congr opcode params, opcode]
  exact h

theorem runs_seqOf {s : State} {i : Instr} (current : s.currentInstr = some i) (cycles : i.oneCycle = false) :
    s.Runs (seqOf i) := by
  unfold State.Runs
  rw [current]
  exact ⟨cycles, rfl⟩

theorem runs_interruptSeqOf {s : State} (current : s.currentInstr = none) :
    s.Runs (interruptSeqOf s.cpu.opcode) := by
  unfold State.Runs
  rw [current]

/-- No access changes the opcode register (40_dispatch R201). -/
theorem resolve_opcode (req : BusReq) (s : State) : (resolve req s).2.cpu.opcode = s.cpu.opcode := by
  obtain ⟨r, ⟨_, _, device⟩, frame⟩ := access_frame req s
  have same : (access req s).2.1.cpu.opcode = s.cpu.opcode := by rw [device, frame]
  exact same

/-- A bus cycle of a sequence leaves it the sequence that is run. -/
theorem State.Runs.oneCycle {q q' : Seq} {s t : State} (h : s.Runs q) (keeps : SeqKeeps q')
    (cycle : oneCycle q' s = .next t) : t.Runs q := by
  have params : t.params = s.params :=
    (oneCycle_forward (fun p c v => (keeps p c v).2.1 ▸ List.prefix_refl _) cycle).params
  refine h.congr ?_ params
  obtain ⟨-, cycle⟩ := oneCycle_inv cycle
  split at cycle
  · rw [cycle]
    rfl
  · obtain ⟨u, v, c, resolved, answered, cycle⟩ := cycle
    have opcode : u.cpu.opcode = s.cpu.opcode := by
      have := resolve_opcode (q' s.params s.cpu).req (s.asking q')
      rwa [resolved] at this
    rw [cycle, settle_cpu]
    refine (keeps u.params c v).1.trans ?_
    rw [answered]
    exact opcode

/-- A CPU that has its turn inside a sequence makes the next bus cycle of it (55_system R702). -/
theorem loopStep_of_runs {q : Seq} {s : State} (h : s.Runs q) (turn : s.cpuTurn = true) (inside : s.cpu.cycle ≠ 0) :
    loopStep s = oneCycle q s := by
  simp only [State.cpuTurn, Bool.and_eq_true, Bool.not_eq_true', Option.isNone_iff_eq_none] at turn
  obtain ⟨⟨running, quiet⟩, idle⟩ := turn
  unfold loopStep
  simp only [running, quiet, idle, Option.isSome_none, Bool.false_eq_true, if_false]
  unfold loopCpu
  rw [if_neg inside]
  unfold State.Runs at h
  cases current : s.currentInstr with
  | some i =>
    rw [current] at h
    obtain ⟨cycles, rfl⟩ := h
    exact if_neg (Bool.eq_false_iff.1 cycles)
  | none =>
    rw [current] at h
    exact congrArg (Machine.oneCycle · s) h

/-! ### Grouped bus cycles are loop steps -/

theorem bind_loopRun_zero (o : Res State) : o.bind (loopRun 0) = o := by cases o <;> rfl

/-- Loop steps go on from any answer alike. -/
theorem exists_bind_loopRun {o : Res State} {f : State → Res State} (each : ∀ t, o = .next t → ∃ n, loopRun n t = f t) :
    ∃ n, o.bind (loopRun n) = o.bind f := by
  cases o with
  | next t => exact each t rfl
  | fault => exact ⟨0, rfl⟩
  | refused => exact ⟨0, rfl⟩

/-- A burst of bus cycles of the sequence that is run is a run of loop steps (log 1). -/
theorem exists_loopRun_burst {q : Seq} (keeps : SeqKeeps q) (m : Nat) {s : State} (h : s.Runs q) :
    ∃ n, loopRun n s = burst q m s := by
  induction m generalizing s with
  | zero => exact ⟨0, rfl⟩
  | succ m ih =>
    unfold burst
    split
    case isTrue => exact ⟨0, rfl⟩
    case isFalse inside =>
      split
      case isTrue turn =>
        obtain ⟨n, run⟩ := exists_bind_loopRun fun t cycle => ih (h.oneCycle keeps cycle)
        refine ⟨n + 1, ?_⟩
        rw [loopRun, loopStep_of_runs h turn inside, run]
      case isFalse => exact ⟨0, rfl⟩

/-- A whole sequence is its first bus cycle and then a run of loop steps. -/
theorem exists_bind_loopRun_runSeq {q : Seq} (keeps : SeqKeeps q) {s : State} (h : s.Runs q) :
    ∃ n, (oneCycle q s).bind (loopRun n) = runSeq q s :=
  exists_bind_loopRun fun _ cycle => exists_loopRun_burst keeps 8 (h.oneCycle keeps cycle)

/-- The answer to an opcode fetch leaves the CPU inside the instruction; a refused fetch leaves its request outstanding
(40_dispatch R203, 55_system R703). -/
theorem oneCycle_fetchSeq_inside {s t : State} (fetched : oneCycle fetchSeq s = .next t) :
    t.cpu.pendingReq.isSome = true ∨ t.cpu.cycle ≠ 0 := by
  obtain ⟨-, cycle⟩ := oneCycle_inv fetched
  split at cycle
  · exact .inl (by rw [cycle]; rfl)
  · obtain ⟨u, v, c, -, -, cycle⟩ := cycle
    refine .inr ?_
    rw [cycle, settle_cpu]
    exact Nat.one_ne_zero

/-- After the fetch the rest of the instruction is a run of loop steps; a one-cycle no-op has none left (40_dispatch
R242). -/
theorem exists_loopRun_afterFetch {s : State} (inside : s.cpu.pendingReq.isSome = true ∨ s.cpu.cycle ≠ 0) :
    ∃ n, (loopCpu.completeOne s).bind (loopRun n) = afterFetch s := by
  unfold loopCpu.completeOne afterFetch
  by_cases refused : s.cpu.pendingReq.isSome = true
  · rw [if_pos refused, if_pos refused]
    exact ⟨0, rfl⟩
  rw [if_neg refused, if_neg refused]
  cases current : s.currentInstr with
  | none => exact ⟨0, rfl⟩
  | some i =>
    have wf := State.wf_of_currentInstr current
    dsimp only
    by_cases one : i.oneCycle = true
    · simp only [one, Bool.true_or, if_true]
      exact ⟨0, bind_loopRun_zero _⟩
    · have cycles : i.oneCycle = false := Bool.eq_false_iff.2 one
      simp only [cycles, Bool.false_or, Bool.false_eq_true, if_false, Res.bind_next]
      split
      case isTrue turn =>
        have runs := runs_seqOf current cycles
        obtain ⟨n, run⟩ := exists_bind_loopRun_runSeq (seqOf_keeps i) runs
        refine ⟨n + 1, ?_⟩
        rw [loopRun, loopStep_of_runs runs turn (inside.resolve_left refused), run, exec_eq_runSeq wf, cycles]
        rfl
      case isFalse => exact ⟨0, rfl⟩

/-- A boundary that starts an interrupt puts its kind in the opcode register (60_exceptions R751, R754). -/
theorem boundary_interrupt_inv {p : Params} {irq : Bool} {c d : Cpu} {k : SeqKind}
    (started : c.boundary p irq = (.interrupt k, d)) : d.opcode = k ∧ ∀ op, k ≠ .instr op := by
  have kinds {e : Cpu} {k : SeqKind} (chosen : e.interruptChoice irq = some k) : ∀ op, k ≠ .instr op := by
    unfold Cpu.interruptChoice at chosen
    split_ifs at chosen <;> cases chosen <;> exact fun _ => nofun
  have opcodes (e : Cpu) (k : SeqKind) : (e.startInterrupt k).opcode = k := by
    cases k <;> rfl
  unfold Cpu.boundary at started
  split at started
  · cases started
  · dsimp only at started
    split at started
    · split at started
      case h_1 chosen =>
        cases started
        exact ⟨opcodes _ _, kinds chosen⟩
      case h_2 => cases started
    · cases started

/-- At a boundary the step is a run of loop steps (40_dispatch R202, 55_system R702). -/
theorem exists_loopRun_stepBoundary {s : State} (boundary : s.cpu.cycle = 0) :
    ∃ n, (loopCpu s).bind (loopRun n) = stepBoundary s := by
  unfold loopCpu stepBoundary
  rw [if_pos boundary]
  by_cases asked : s.cpu.pendingReq.isSome = true
  · rw [if_pos asked, if_pos asked]
    exact ⟨0, rfl⟩
  rw [if_neg asked, if_neg asked]
  rcases chosen : s.cpu.boundary s.params s.irqLine with ⟨what, c⟩
  cases what with
  | brk | asleep => exact ⟨0, rfl⟩
  | interrupt k =>
    obtain ⟨rfl, kind⟩ := boundary_interrupt_inv chosen
    have current : ({ s with cpu := c } : State).currentInstr = none := by
      unfold State.currentInstr
      split
      case h_1 op same => exact absurd same (kind op)
      case h_2 => rfl
    exact exists_bind_loopRun_runSeq (interruptSeqOf_keeps _) (runs_interruptSeqOf current)
  | fetch =>
    dsimp only
    cases fetched : oneCycle fetchSeq { s with cpu := c } with
    | next t => exact exists_loopRun_afterFetch (oneCycle_fetchSeq_inside fetched)
    | fault | refused => exact ⟨0, rfl⟩

/-- Inside a sequence the step is a run of loop steps (40_dispatch R201). -/
theorem exists_loopRun_stepResume {s : State} (inside : s.cpu.cycle ≠ 0) :
    ∃ n, (loopCpu s).bind (loopRun n) = stepResume s := by
  unfold loopCpu stepResume
  rw [if_neg inside]
  cases current : s.currentInstr with
  | none => exact exists_bind_loopRun_runSeq (interruptSeqOf_keeps _) (runs_interruptSeqOf current)
  | some i =>
    dsimp only
    by_cases one : i.oneCycle = true
    · rw [if_pos one]
      exact ⟨0, bind_loopRun_zero _⟩
    · rw [if_neg one, exec_eq_runSeq (State.wf_of_currentInstr current), if_neg one]
      exact exists_bind_loopRun_runSeq (seqOf_keeps i) (runs_seqOf current (Bool.eq_false_iff.2 one))

/-- A step is one loop step or more, whatever its outcome (log 1). -/
theorem exists_loopRun_step (s : State) : ∃ n, loopRun (n + 1) s = step s := by
  change ∃ n, (loopStep s).bind (loopRun n) = step s
  unfold loopStep step
  split
  · exact ⟨0, rfl⟩
  split
  · exact ⟨0, bind_loopRun_zero _⟩
  split
  · exact ⟨0, rfl⟩
  split
  case isTrue boundary => exact exists_loopRun_stepBoundary boundary
  case isFalse inside => exact exists_loopRun_stepResume inside

/-! ### A loop step makes one bus cycle at most -/

theorem settle_busLog (s : State) : s.settle.busLog = s.busLog := by rw [settle_eq]

theorem idle_busLog (s : State) : (idle s).busLog = s.busLog := by
  unfold idle
  split <;> rfl

theorem EventFrame.busLog {s t : State} (h : EventFrame s t) : t.busLog = s.busLog := by
  obtain ⟨-, u, ⟨_, _, device⟩, rest⟩ := h
  rw [device, rest]

theorem EventFrame.regs {s t : State} (h : EventFrame s t) : t.cpu.regs = s.cpu.regs := by
  obtain ⟨-, u, ⟨_, _, device⟩, rest⟩ := h
  rw [device, rest]
  rfl

theorem resolve_busLog_length (req : BusReq) (s : State) :
    (resolve req s).2.busLog.length = s.busLog.length + 1 := by
  obtain ⟨r, ⟨_, _, device⟩, frame⟩ := access_frame req s
  have before : (access req s).2.1.busLog = s.busLog := by rw [device, frame]
  rw [resolve_eq, State.recordAccess_busLog, Yield.commit_busLog, before, List.length_append, List.length_singleton]

theorem oneCycle_busLog_length {q : Seq} {s t : State} (cycle : oneCycle q s = .next t) :
    t.busLog.length ≤ s.busLog.length + 1 := by
  obtain ⟨-, cycle⟩ := oneCycle_inv cycle
  split at cycle
  · rw [cycle]
    exact Nat.le_succ _
  · obtain ⟨u, v, c, resolved, -, cycle⟩ := cycle
    have length := resolve_busLog_length (q s.params s.cpu).req (s.asking q)
    rw [resolved] at length
    rw [cycle, settle_busLog]
    exact length.le

theorem exec_oneCycle_busLog {i : Instr} {s t : State} (one : i.oneCycle = true) (ran : exec i s = .next t) :
    t.busLog = s.busLog := by
  rw [exec_eq_runSeq (wf_of_exec_next ran), if_pos one] at ran
  cases ran
  rfl

theorem completeOne_busLog {s t : State} (ran : loopCpu.completeOne s = .next t) : t.busLog = s.busLog := by
  unfold loopCpu.completeOne at ran
  split at ran
  · cases ran
    rfl
  split at ran
  · split at ran
    case isTrue one => exact exec_oneCycle_busLog one ran
    case isFalse =>
      cases ran
      rfl
  · cases ran
    rfl

theorem loopCpu_busLog_length {s t : State} (ran : loopCpu s = .next t) : t.busLog.length ≤ s.busLog.length + 1 := by
  unfold loopCpu at ran
  split at ran
  · split at ran
    · cases ran
    split at ran
    case h_1 =>
      cases ran
      exact Nat.le_succ _
    case h_2 c _ =>
      cases ran
      rw [settle_busLog, idle_busLog]
      exact Nat.le_succ _
    case h_3 c _ => exact oneCycle_busLog_length (s := { s with cpu := c }) ran
    case h_4 c _ =>
      obtain ⟨u, fetched, rest⟩ := Res.bind_eq_next ran
      rw [completeOne_busLog rest]
      exact oneCycle_busLog_length (s := { s with cpu := c }) fetched
  · split at ran
    · split at ran
      case isTrue one =>
        rw [exec_oneCycle_busLog one ran]
        exact Nat.le_succ _
      case isFalse => exact oneCycle_busLog_length ran
    · exact oneCycle_busLog_length ran

theorem dispatchEvent_settle_frame {s t : State} (ran : (dispatchEvent s).bind (fun s => .next s.settle) = .next t) :
    t.busLog = s.busLog ∧ t.cpu.regs = s.cpu.regs := by
  obtain ⟨u, dispatched, settled⟩ := Res.bind_eq_next ran
  cases settled
  have frame := dispatchEvent_frame dispatched
  rw [settle_busLog, settle_cpu]
  exact ⟨frame.busLog, frame.regs⟩

theorem spriteMicroStep_settle_frame (s : State) :
    (spriteMicroStep s).settle.busLog = s.busLog ∧ (spriteMicroStep s).settle.cpu.regs = s.cpu.regs := by
  obtain ⟨-, frame⟩ := spriteMicroStep_frame s
  rw [settle_busLog, settle_cpu, frame]
  exact ⟨rfl, rfl⟩

theorem loopStep_busLog_length {s t : State} (ran : loopStep s = .next t) :
    t.busLog.length ≤ s.busLog.length + 1 := by
  unfold loopStep at ran
  split at ran
  · cases ran
  split at ran
  · rw [(dispatchEvent_settle_frame ran).1]
    exact Nat.le_succ _
  split at ran
  · cases ran
    rw [(spriteMicroStep_settle_frame s).1]
    exact Nat.le_succ _
  · exact loopCpu_busLog_length ran

/-! ### The other agents' turns -/

theorem eventDue_iff {s : State} : s.eventDue = true ↔ ∃ e, peekEarliestTick s.queue = some e ∧ e ≤ s.now := by
  unfold State.eventDue
  split
  case h_1 earliest => simp [earliest]
  case h_2 empty => simp [empty]

/-- An event due is dispatched, by the step and by the loop step alike (55_system R700 step 1). -/
theorem step_of_eventDue {s : State} (running : s.runExit = none) (due : s.eventDue = true) :
    step s = (dispatchEvent s).bind (fun s => .next s.settle) ∧ loopStep s = step s := by
  unfold step loopStep
  simp [running, due]

/-- With no event due a busy sprite device makes its micro-step (55_system R700 step 2). -/
theorem step_of_busy {s : State} (running : s.runExit = none) (quiet : s.eventDue = false)
    (busy : s.suzy.busy = true) : step s = .next (spriteMicroStep s).settle ∧ loopStep s = step s := by
  unfold step loopStep
  simp [running, quiet, busy]

theorem spriteMicroStep_runExit (s : State) : (spriteMicroStep s).runExit = s.runExit := by
  obtain ⟨-, frame⟩ := spriteMicroStep_frame s
  rw [frame]

/-- While the run goes on only a full buffer ends it after an agent's turn (55_system R717). -/
theorem settle_of_running {t : State} (running : t.runExit = none) : t.settle = { t with
    runExit := if t.sampling.active = true ∧ t.sampling.idx = t.sampling.buf.length then some .audioFull
      else none } := by
  rw [settle_eq, running]
  simp

/-- A pop with an event due is of an event there is, never the sentinel (50_event_queue R504). -/
theorem popEarliest_kind_of_due {s : State} (due : s.eventDue = true) :
    (popEarliest s.tieCount s.queue).1.kind ≠ .none := by
  obtain ⟨e, earliest, -⟩ := eventDue_iff.1 due
  obtain ⟨⟨x, mem, live, -⟩, -⟩ := peek_some earliest
  exact (mem_earliestEvents.1 (popEarliest_of_live s.tieCount ⟨x, mem, live⟩).1).2.1

/-- What the handler of the popped event yields is pushed, and the step goes to that state, settled. -/
theorem step_of_handled {s : State} {y : Yield} (running : s.runExit = none) (due : s.eventDue = true)
    (handled : let r := popEarliest s.tieCount s.queue
      handleEvent r.1 { s with queue := r.2.1, tieCount := r.2.2 } = .next y) :
    let t : State := { Yield.commit y with
      runExit := if y.1.sampling.active = true ∧ y.1.sampling.idx = y.1.sampling.buf.length then some .audioFull
        else none }
    step s = .next t ∧ loopStep s = .next t := by
  obtain ⟨steps, same⟩ := step_of_eventDue running due
  have exit : y.1.runExit = none := (handleEvent_frame handled).request.2.trans running
  have dispatched : dispatchEvent s = .next (Yield.commit y) := by
    unfold dispatchEvent
    dsimp only at handled ⊢
    rw [handled]
    rfl
  rw [dispatched, Res.bind_next, settle_of_running (t := Yield.commit y) exit] at steps
  exact ⟨steps, same.trans steps⟩

/-- Settles O58: the grouping is `exists_loopRun_step`, and the agents' turns are `step_of_handled` for the handler of
the popped event's kind, and `step_of_busy`. -/
theorem stepIsLoopSteps : Obligations.StepIsLoopSteps := by
  intro s
  refine ⟨exists_loopRun_step s, fun t => loopStep_busLog_length, fun running => ?_⟩
  intro due full goesTo
  refine ⟨fun isDue => ?_, fun notDue busy => ?_, fun turn t ran => ?_⟩
  · have isDue : s.eventDue = true := eventDue_iff.2 isDue
    have live := popEarliest_kind_of_due isDue
    intro r x runs
    have handled {y : Yield} (h : handleEvent r.1 x = .next y) : runs y := step_of_handled running isDue h
    unfold handleEvent at handled
    cases kind : r.1.kind <;> rw [kind] at handled <;> dsimp only at handled ⊢
    case none => exact live kind
    case timer n => exact fun h => handled (dif_pos h)
    case audioSample | displayDma | resetRelease => exact handled rfl
  · obtain ⟨steps, same⟩ := step_of_busy running (Bool.eq_false_iff.2 (mt eventDue_iff.1 notDue)) busy
    rw [settle_of_running ((spriteMicroStep_runExit s).trans running)] at steps
    exact ⟨steps, same.trans steps⟩
  · by_cases isDue : s.eventDue = true
    · rw [(step_of_eventDue running isDue).1] at ran
      exact dispatchEvent_settle_frame ran
    · have busy := turn.resolve_left (mt eventDue_iff.2 isDue)
      rw [(step_of_busy running (Bool.eq_false_iff.2 isDue) busy).1] at ran
      cases ran
      exact spriteMicroStep_settle_frame s

end Sys2Proof.Machine
end
